-- ==== Sys2Proof/Word.lean ====
section
/-! DEFINITION. The two widths of the spec's values: the byte a bus frame moves and the 16-bit device address, pointer and length (00_scope.md R7). -/

namespace Sys2Proof

/-- An 8-bit value: one byte of a bus frame, of the frame buffer or of device space (R7). -/
abbrev Byte := BitVec 8

/-- A 16-bit value: a device address, a ring pointer, a size or a length (R7, R27). -/
abbrev Word := BitVec 16

end Sys2Proof
end

