-- ==== Sys2Proof/Config.lean ====
section
/-! DEFINITION. The configuration record of 00_scope.md R13 and R14, its default values, when it is valid (R9, R10), and the one free value of the model: the byte the device agent answers where nothing in the state says it (R51). -/

namespace Sys2Proof

/-- Every device address and code the engine uses (R14). The source gives the formula of a socket-block address
and none of the numbers; they are parameters. -/
structure RegMap where
  aMr : Word
  aIr : Word
  aImr : Word
  sockBase : Word
  sockStride : Word
  oMr : Word
  oCr : Word
  oIr : Word
  oSr : Word
  oTxFsr : Word
  oTxRd : Word
  oTxWr : Word
  oRxRsr : Word
  oRxRd : Word
  mrRst : Byte
  irS0 : Byte
  sirSendOk : Byte
  sirTimeout : Byte
  sirRecv : Byte
  sirDiscon : Byte
  sirCon : Byte
  smrMacraw : Byte
  ssrMacraw : Byte
  cmdOpen : Byte
  cmdClose : Byte
  cmdSend : Byte
  cmdRecv : Byte
  deriving DecidableEq, Repr

/-- The default of REGMAP (R14). PRESUMED: the spec marks every number of it as general knowledge of a WIZnet W5100. -/
def RegMap.default : RegMap where
  aMr := 0x0000
  aIr := 0x0015
  aImr := 0x0016
  sockBase := 0x0400
  sockStride := 0x0100
  oMr := 0x00
  oCr := 0x01
  oIr := 0x02
  oSr := 0x03
  oTxFsr := 0x20
  oTxRd := 0x22
  oTxWr := 0x24
  oRxRsr := 0x26
  oRxRd := 0x28
  mrRst := 0x80
  irS0 := 0x01
  sirSendOk := 0x10
  sirTimeout := 0x08
  sirRecv := 0x04
  sirDiscon := 0x02
  sirCon := 0x01
  smrMacraw := 0x04
  ssrMacraw := 0x42
  cmdOpen := 0x01
  cmdClose := 0x10
  cmdSend := 0x20
  cmdRecv := 0x40

/-- Where the receive-ready flag is acknowledged: RECV_ACK_POINT (R12, R127). -/
inductive AckPoint where
  | beforeDispatch
  | afterDispatch
  deriving DecidableEq, Repr

/-- The configuration record in full (R13). A bound of `none` is the spec's INF. -/
structure Config where
  opRead : Byte
  opWrite : Byte
  rxHdr : Word
  txBase : Word
  txMask : Word
  rxBase : Word
  rxMask : Word
  cap : Word
  negBound : Option Nat
  fsrBound : Option Nat
  recvAckPoint : AckPoint
  regmap : RegMap
  deriving DecidableEq, Repr

/-- The defaults of R13. DESIGN CHOICE: FRAME_BUF_CAP is OPEN in the spec; 16 is its test capacity (log 1). -/
def Config.default : Config where
  opRead := 0x0F
  opWrite := 0xF0
  rxHdr := 2
  txBase := 0x4000
  txMask := 0x07FF
  rxBase := 0x6000
  rxMask := 0x07FF
  cap := 16
  negBound := none
  fsrBound := none
  recvAckPoint := .beforeDispatch
  regmap := .default

/-- A window is valid when its size is a power of two from 1 to 2^15 and it ends inside the address space (R9). -/
def Config.validWindow (base mask : Word) : Bool :=
  (List.range 16).any (fun k => mask.toNat + 1 == 2 ^ k) && decide (base.toNat + mask.toNat ≤ 0xFFFF)

/-- A valid configuration (R9, R10). DESIGN CHOICE: the two bus opcodes also differ (log 20). -/
def Config.valid (c : Config) : Bool :=
  Config.validWindow c.txBase c.txMask && Config.validWindow c.rxBase c.rxMask &&
    decide (1 ≤ c.cap.toNat) && decide (c.cap.toNat ≤ 0xFFFD) && c.opRead != c.opWrite

/-- The free value of the model: the n-th byte the device agent answers where neither its turn nor what it holds
gives one (R51: any byte, for any read, at any time). It has no body, so nothing can be proved of its values. -/
opaque Config.deviceByte : Nat → Byte

end Sys2Proof
end

