-- ==== Sys2Proof/Machine/Operands.lean ====
section
/-! DEFINITION. Operand assembly (30_encoding.md R84, R85; 20_memory.md R59): the halves of a 16-bit value, their concatenation, the second address of a 16-bit access, and the register addresses made from REGMAP (00_scope.md R14). -/

namespace Sys2Proof.Machine

/-- `v[15:8]` (R84, R85). -/
def hiByte (v : Word) : Byte := v.extractLsb' 8 8

/-- `v[7:0]` (R84, R85). -/
def loByte (v : Word) : Byte := v.extractLsb' 0 8

/-- `{hi, lo}`: hi * 256 + lo (R59, R94). -/
def concatBytes (hi lo : Byte) : Word := hi ++ lo

/-- A byte zero-extended to 16 bits (R85). -/
def zeroExtend (b : Byte) : Word := b.setWidth 16

/-- The address of the low byte of a 16-bit register at `a`: `(a + 1) mod 2^16` (R62, R76). -/
def nextAddr (a : Word) : Word := a + 1

/-- The address of field offset `o` of channel `n`'s socket block (R14). -/
def sockAddr (rm : RegMap) (n o : Word) : Word := rm.sockBase + rm.sockStride * n + o

/-- S0_MR: the channel-0 mode register (R3, R37). -/
def s0Mr (rm : RegMap) : Word := sockAddr rm 0 rm.oMr

/-- S0_CR: the channel-0 command register (R38). -/
def s0Cr (rm : RegMap) : Word := sockAddr rm 0 rm.oCr

/-- S0_IR: the channel-0 interrupt register (R39). -/
def s0Ir (rm : RegMap) : Word := sockAddr rm 0 rm.oIr

/-- S0_SR: the channel-0 status register (R40). -/
def s0Sr (rm : RegMap) : Word := sockAddr rm 0 rm.oSr

/-- S0_TX_FSR: the channel-0 TX-free-size register (R41). -/
def s0TxFsr (rm : RegMap) : Word := sockAddr rm 0 rm.oTxFsr

/-- S0_TX_RD: the channel-0 TX-read-pointer (R42). -/
def s0TxRd (rm : RegMap) : Word := sockAddr rm 0 rm.oTxRd

/-- S0_TX_WR: the channel-0 TX-write-pointer (R43). -/
def s0TxWr (rm : RegMap) : Word := sockAddr rm 0 rm.oTxWr

/-- S0_RX_RSR: the channel-0 RX-received-size register (R44). -/
def s0RxRsr (rm : RegMap) : Word := sockAddr rm 0 rm.oRxRsr

/-- S0_RX_RD: the channel-0 RX-read-pointer (R45). -/
def s0RxRd (rm : RegMap) : Word := sockAddr rm 0 rm.oRxRd

end Sys2Proof.Machine
end

