-- ==== Sys2Proof/Syntax.lean ====
section
/-! DEFINITION. The operations of spec/opcode_table.json, one constructor for each of its 25 rows, and the three ports their encodings belong to (30_encoding.md). -/

namespace Sys2Proof

/-- Where an operation's encoding is seen: bus frames on the bus port (R71), request codes on the host port (R79),
and the internal operation codes, which the host cannot issue (R80). -/
inductive Port where
  | bus
  | host
  | internal
  deriving DecidableEq, Repr

/-- The operations of the opcode table, in the table's order. -/
inductive Instr where
  /-- READ8(a) (R92). -/
  | read8 (addr : Word)
  /-- WRITE8(a, d) (R93). -/
  | write8 (addr : Word) (data : Byte)
  /-- READ16(a) (R94). -/
  | read16 (addr : Word)
  /-- WRITE16(a, v) (R95). -/
  | write16 (addr : Word) (value : Word)
  /-- MR_RESET: write MR_RST to A_MR (R108). -/
  | mrReset
  /-- IMR_CLEAR: write 0x00 to A_IMR (R108). -/
  | imrClear
  /-- SET_MACRAW: write SMR_MACRAW to S0_MR (R109). -/
  | setMacraw
  /-- CMD_OPEN: write the OPEN command to S0_CR (R109). -/
  | cmdOpen
  /-- CMD_CLOSE: write the CLOSE command to S0_CR (R111). -/
  | cmdClose
  /-- CMD_RECV: write the RECV command to S0_CR (R131). -/
  | cmdRecv
  /-- CMD_SEND: write the SEND command to S0_CR (R140). -/
  | cmdSend
  /-- ACK_SEND_OK: write SIR_SEND_OK to S0_IR (R118). -/
  | ackSendOk
  /-- ACK_RECV: write SIR_RECV to S0_IR (R127). -/
  | ackRecv
  /-- ACK_IR(v): write the global snapshot v to A_IR (R120). -/
  | ackIr (v : Byte)
  /-- READ_SR: read S0_SR (R109). -/
  | readSr
  /-- READ_IR: read A_IR (R116). -/
  | readIr
  /-- READ_S0_IR: read S0_IR (R117). -/
  | readS0Ir
  /-- INIT: host request 0x01 (R107). -/
  | init
  /-- POLL_ONCE: host request 0x02 (R115). -/
  | pollOnce
  /-- TRANSMIT: host request 0x03 (R134). -/
  | transmit
  /-- Any other host request code (R87). -/
  | reservedRequest (code : Byte)
  /-- RECEIVE_DRAIN: internal operation 0x80 (R125). -/
  | receiveDrain
  /-- COPY_IN: internal operation 0x81 (R100). -/
  | copyIn
  /-- COPY_OUT: internal operation 0x82 (R101). -/
  | copyOut
  /-- DISPATCH: internal operation 0x83 (R144). -/
  | dispatch
  deriving DecidableEq, Repr

end Sys2Proof
end

