-- ==== Sys2Proof/WellFormed.lean ====
section
/-! DEFINITION. Which operations are the table's own name for their encoding: a READ8 or WRITE8 whose frame has a name of its own (30_encoding.md R78) is written by that name, and a reserved request code is none of the three requests (R79, R87). -/

namespace Sys2Proof

open Machine

/-- The fixed-value write frames of R78 that have a name: address and data. -/
def namedWrites (rm : RegMap) : List (Word × Byte) :=
  [(rm.aMr, rm.mrRst), (rm.aImr, 0x00), (s0Mr rm, rm.smrMacraw), (s0Cr rm, rm.cmdOpen), (s0Cr rm, rm.cmdClose),
   (s0Cr rm, rm.cmdRecv), (s0Cr rm, rm.cmdSend), (s0Ir rm, rm.sirSendOk), (s0Ir rm, rm.sirRecv)]

/-- The addresses whose READ8 frame has a name in the table. -/
def namedReads (rm : RegMap) : List Word := [s0Sr rm, rm.aIr, s0Ir rm]

/-- An operation is well formed when it is the table's name for its encoding. -/
def Instr.wf (rm : RegMap) : Instr → Bool
  | .read8 a => !(namedReads rm).contains a
  | .write8 a d => !(namedWrites rm).contains (a, d) && a != rm.aIr
  | .reservedRequest code => code != 0x01 && code != 0x02 && code != 0x03
  | .read16 _ => true
  | .write16 _ _ => true
  | .mrReset => true
  | .imrClear => true
  | .setMacraw => true
  | .cmdOpen => true
  | .cmdClose => true
  | .cmdRecv => true
  | .cmdSend => true
  | .ackSendOk => true
  | .ackRecv => true
  | .ackIr _ => true
  | .readSr => true
  | .readIr => true
  | .readS0Ir => true
  | .init => true
  | .pollOnce => true
  | .transmit => true
  | .receiveDrain => true
  | .copyIn => true
  | .copyOut => true
  | .dispatch => true

end Sys2Proof
end

