-- ==== Sys2Proof/Decode.lean ====
section
/-! DEFINITION. The decoder of bus frames, host request codes and internal operation codes (30_encoding.md R71 to R80, R86, R87), total on any bytes, and after it the encoder written from the same tables. -/

namespace Sys2Proof

open Machine

/-- Why bytes are no operation: each reason by name. Raised by `decode` only. -/
inductive DecodeError where
  /-- A bus frame whose byte 0 is neither OP_READ nor OP_WRITE: the spec's `Invalid` (R86). -/
  | invalidFrame
  /-- Two frames that are no READ16 or WRITE16 pair (R76, R77). -/
  | notAPair
  /-- A number of bytes no operation has (R89). -/
  | badLength
  /-- An internal operation code R80 does not list. -/
  | unknownInternal
  deriving DecidableEq, Repr

/-- The name of the READ8 frame at `a` whose byte 3 is `d`: a named read needs the dummy byte 0x00, a READ8 any byte
(the table's masks; R74). -/
def nameRead (rm : RegMap) (a : Word) (d : Byte) : Instr :=
  if d ≠ 0x00 then .read8 a
  else if a = s0Sr rm then .readSr
  else if a = rm.aIr then .readIr
  else if a = s0Ir rm then .readS0Ir
  else .read8 a

/-- The name of the WRITE8 frame of `d` at `a` (R78). -/
def nameWrite (rm : RegMap) (a : Word) (d : Byte) : Instr :=
  if a = rm.aMr ∧ d = rm.mrRst then .mrReset
  else if a = rm.aImr ∧ d = 0x00 then .imrClear
  else if a = s0Mr rm ∧ d = rm.smrMacraw then .setMacraw
  else if a = s0Cr rm ∧ d = rm.cmdOpen then .cmdOpen
  else if a = s0Cr rm ∧ d = rm.cmdClose then .cmdClose
  else if a = s0Cr rm ∧ d = rm.cmdRecv then .cmdRecv
  else if a = s0Cr rm ∧ d = rm.cmdSend then .cmdSend
  else if a = s0Ir rm ∧ d = rm.sirSendOk then .ackSendOk
  else if a = s0Ir rm ∧ d = rm.sirRecv then .ackRecv
  else if a = rm.aIr then .ackIr d
  else .write8 a d

/-- One bus frame: byte 0 tells the form (R74, R86, R89). -/
def decodeFrame (c : Config) (op ah al d : Byte) : Except DecodeError Instr :=
  if op = c.opRead then .ok (nameRead c.regmap (concatBytes ah al) d)
  else if op = c.opWrite then .ok (nameWrite c.regmap (concatBytes ah al) d)
  else .error .invalidFrame

/-- A pair of bus frames: READ16 or WRITE16 when the second address is `(a + 1) mod 2^16` (R76, R77). -/
def decodePair (c : Config) (op ah al d op' bh bl d' : Byte) : Except DecodeError Instr :=
  if (op ≠ c.opRead ∧ op ≠ c.opWrite) ∨ (op' ≠ c.opRead ∧ op' ≠ c.opWrite) then .error .invalidFrame
  else if op ≠ op' ∨ concatBytes bh bl ≠ nextAddr (concatBytes ah al) then .error .notAPair
  else if op = c.opRead then
    if d = 0x00 ∧ d' = 0x00 then .ok (.read16 (concatBytes ah al)) else .error .notAPair
  else .ok (.write16 (concatBytes ah al) (concatBytes d d'))

/-- The host port's request code: total, every code is a request or a reserved one (R79, R87). -/
def decodeRequest (code : Byte) : Instr :=
  if code = 0x01 then .init
  else if code = 0x02 then .pollOnce
  else if code = 0x03 then .transmit
  else .reservedRequest code

/-- The internal operation codes (R80). -/
def decodeInternal (code : Byte) : Except DecodeError Instr :=
  if code = 0x80 then .ok .receiveDrain
  else if code = 0x81 then .ok .copyIn
  else if code = 0x82 then .ok .copyOut
  else if code = 0x83 then .ok .dispatch
  else .error .unknownInternal

/-- The decoder: the operation that bytes on a port are, byte 0 of a frame first. -/
def decode (c : Config) : Port → List Byte → Except DecodeError Instr
  | .bus, [op, ah, al, d] => decodeFrame c op ah al d
  | .bus, [op, ah, al, d, op', bh, bl, d'] => decodePair c op ah al d op' bh bl d'
  | .host, [code] => .ok (decodeRequest code)
  | .internal, [code] => decodeInternal code
  | _, _ => .error .badLength

/-- The port an operation's encoding belongs to. -/
def Instr.port : Instr → Port
  | .init => .host
  | .pollOnce => .host
  | .transmit => .host
  | .reservedRequest _ => .host
  | .receiveDrain => .internal
  | .copyIn => .internal
  | .copyOut => .internal
  | .dispatch => .internal
  | .read8 _ => .bus
  | .write8 _ _ => .bus
  | .read16 _ => .bus
  | .write16 _ _ => .bus
  | .mrReset => .bus
  | .imrClear => .bus
  | .setMacraw => .bus
  | .cmdOpen => .bus
  | .cmdClose => .bus
  | .cmdRecv => .bus
  | .cmdSend => .bus
  | .ackSendOk => .bus
  | .ackRecv => .bus
  | .ackIr _ => .bus
  | .readSr => .bus
  | .readIr => .bus
  | .readS0Ir => .bus

/-- The four bytes of a bus frame, byte 0 first (R71). -/
def frameBytes (op : Byte) (a : Word) (d : Byte) : List Byte := [op, hiByte a, loByte a, d]

/-- The four bytes of a READ8 frame (R72). -/
def readFrame (c : Config) (a : Word) : List Byte := frameBytes c.opRead a 0x00

/-- The four bytes of a WRITE8 frame (R73). -/
def writeFrame (c : Config) (a : Word) (d : Byte) : List Byte := frameBytes c.opWrite a d

/-- The encoder: the bytes of an operation (R71 to R80). -/
def encode (c : Config) : Instr → List Byte
  | .read8 a => readFrame c a
  | .write8 a d => writeFrame c a d
  | .read16 a => readFrame c a ++ readFrame c (nextAddr a)
  | .write16 a v => writeFrame c a (hiByte v) ++ writeFrame c (nextAddr a) (loByte v)
  | .mrReset => writeFrame c c.regmap.aMr c.regmap.mrRst
  | .imrClear => writeFrame c c.regmap.aImr 0x00
  | .setMacraw => writeFrame c (s0Mr c.regmap) c.regmap.smrMacraw
  | .cmdOpen => writeFrame c (s0Cr c.regmap) c.regmap.cmdOpen
  | .cmdClose => writeFrame c (s0Cr c.regmap) c.regmap.cmdClose
  | .cmdRecv => writeFrame c (s0Cr c.regmap) c.regmap.cmdRecv
  | .cmdSend => writeFrame c (s0Cr c.regmap) c.regmap.cmdSend
  | .ackSendOk => writeFrame c (s0Ir c.regmap) c.regmap.sirSendOk
  | .ackRecv => writeFrame c (s0Ir c.regmap) c.regmap.sirRecv
  | .ackIr v => writeFrame c c.regmap.aIr v
  | .readSr => readFrame c (s0Sr c.regmap)
  | .readIr => readFrame c c.regmap.aIr
  | .readS0Ir => readFrame c (s0Ir c.regmap)
  | .init => [0x01]
  | .pollOnce => [0x02]
  | .transmit => [0x03]
  | .reservedRequest code => [code]
  | .receiveDrain => [0x80]
  | .copyIn => [0x81]
  | .copyOut => [0x82]
  | .dispatch => [0x83]

/-- A bus frame as the 32-bit word `{op, addr[15:8], addr[7:0], data}` of R74, byte 0 in bits 31:24. -/
def frameWord (op : Byte) (a : Word) (d : Byte) : BitVec 32 := op ++ hiByte a ++ loByte a ++ d

/-- Byte `k` of a number, bits 8k+7 down to 8k. -/
def byteAt (w k : Nat) : Byte := BitVec.ofNat 8 (w >>> (8 * k))

/-- The bytes of one bus frame, byte 0 first, from a number whose bits 8k+31 down to 8k are its frame word (R74). -/
def wordBytes (w k : Nat) : List Byte := [byteAt w (k + 3), byteAt w (k + 2), byteAt w (k + 1), byteAt w k]

/-- The decoder's answer, or none where it refuses. -/
def decodeOption (c : Config) (p : Port) (bs : List Byte) : Option Instr :=
  match decode c p bs with
  | .ok i => some i
  | .error _ => none

/-- The operation a row's word stands for, its bits numbered as the opcode table numbers them: an 8-bit code is an
internal operation where R80 lists it and a host request otherwise (DESIGN CHOICE, log 15); 32 bits are one frame; 64
bits are two frames, the first in the low 32 bits (DESIGN CHOICE, log 33: the spec gives no bit numbers above 31). The
table's named frames are those of the default REGMAP. -/
def decodeTableWord (nbits w : Nat) : Option Instr :=
  if nbits ≤ 8 then
    match decodeOption Config.default .internal [byteAt w 0] with
    | some i => some i
    | none => decodeOption Config.default .host [byteAt w 0]
  else if nbits ≤ 32 then decodeOption Config.default .bus (wordBytes w 0)
  else if nbits ≤ 64 then decodeOption Config.default .bus (wordBytes w 0 ++ wordBytes w 4)
  else none

end Sys2Proof
end

