-- ==== Sys2Proof/Machine/Flags.lean ====
section
/-! DEFINITION. The interrupt flags (10_state.md R33, R39, R47; 30_encoding.md R83): the write-1-to-clear rule and the bit test. The engine itself has no condition codes (40_transport.md R91). -/

namespace Sys2Proof.Machine

/-- Write-1-to-clear (R47): `new = old & ~v`. -/
def writeOneToClear (old v : Byte) : Byte := old &&& ~~~v

/-- The test `x & m != 0` of R117 to R119. -/
def flagSet (x m : Byte) : Bool := x &&& m != 0x00

end Sys2Proof.Machine
end

