-- ==== Sys2Proof/Machine/Memory.lean ====
section
/-! DEFINITION. Memory as a list of (address, byte) cells in one canonical form: addresses strictly rising, and no cell equal to what an unlisted address reads as. The frame buffer and the device's space are two such lists, each with its own reading of an unlisted address. -/

namespace Sys2Proof.Machine

/-- The cell at address `a`, if one is listed. -/
def Memory.lookup : List Host.Cell → Nat → Option Byte
  | [], _ => none
  | (k, b) :: m, a => if k = a then some b else Memory.lookup m a

/-- The byte at `a`: the listed one, or what an unlisted address reads as. -/
def Memory.read (unlisted : Nat → Option Byte) (m : List Host.Cell) (a : Nat) : Option Byte :=
  match Memory.lookup m a with
  | some b => some b
  | none => unlisted a

/-- The list without its cell at `a`. -/
def Memory.erase (m : List Host.Cell) (a : Nat) : List Host.Cell := m.filter (fun c => c.1 != a)

/-- The list with the cell `(a, b)` put in its place, its addresses rising. -/
def Memory.insert : List Host.Cell → Nat → Byte → List Host.Cell
  | [], a, b => [(a, b)]
  | (k, c) :: m, a, b =>
    if a < k then (a, b) :: (k, c) :: m
    else if a = k then (a, b) :: m
    else (k, c) :: Memory.insert m a b

/-- Write byte `b` at `a`: a byte equal to what an unlisted address reads as is not listed. -/
def Memory.write (unlisted : Nat → Option Byte) (m : List Host.Cell) (a : Nat) (b : Byte) : List Host.Cell :=
  if unlisted a = some b then Memory.erase m a else Memory.insert m a b

/-- Every address of the list is above `k`. -/
def Memory.above (k : Nat) (m : List Host.Cell) : Bool := m.all (fun c => k < c.1)

/-- The canonical form: addresses strictly rising, and no cell equal to what an unlisted address reads as. -/
def Memory.wf (unlisted : Nat → Option Byte) : List Host.Cell → Bool
  | [] => true
  | (k, b) :: m => Memory.above k m && unlisted k != some b && Memory.wf unlisted m

end Sys2Proof.Machine
end

