-- ==== Sys2Proof/Machine/State.lean ====
section
/-! DEFINITION. The machine's state as plain data: everything 10_state.md gives the engine (R20 to R30), the device agent as far as its contract is stated (R32 to R51), the moves of the host and of Frame Dispatch (R18, R19), and State.reset (70_reset_and_hazards.md R172). -/

namespace Sys2Proof.Machine

/-- The device-mode state (R25). -/
inductive Mode where
  | reset
  | modeNegotiation
  | rawActive
  deriving DecidableEq, Repr

/-- The request level (R30). -/
inductive Act where
  | idle
  | inInit
  | inPoll
  | inDispatch
  | inNestedTransmit
  | inTransmit
  deriving DecidableEq, Repr

/-- The step labels of the sequencer (R23): the labelled lines of R107, R115, R125 and R134, and DISPATCH for the
callout. The admission lines I0, P0 and T0 run inside the request's own meaning and are never rested at (log 18). -/
inductive Label where
  | i1 | i2 | i3 | i4 | i5 | i6 | i7 | i8
  | p1 | p2 | p3 | p4 | p5
  | d1 | d2 | d3 | d4 | d5 | d6 | d7 | d8 | d9
  | dispatch
  | t1 | t2 | t3 | t4 | t5 | t6 | t7
  deriving DecidableEq, Repr

/-- Why a fault mark is set (R153). -/
inductive FaultReason where
  /-- COPY_IN or COPY_OUT: the cursor is outside its window (R100, R101). Safe: the engine stops. -/
  | protocolDesync
  /-- A read of an unwritten FB byte, LEN or working register (R24, R26, R27). Safe: the engine stops. -/
  | unwrittenRead
  /-- COPY_OUT reaching FB[CAP] (R57, R101). Safe: the engine stops. -/
  | frameBufferBounds
  deriving DecidableEq, Repr

/-- Why a refusal mark is set (R154). -/
inductive RefusalReason where
  /-- A reserved request code (R87). -/
  | reservedRequest
  /-- A request while another runs, but for TRANSMIT inside the callout (R154). -/
  | reentered
  /-- INIT in RawActive (R154). -/
  | alreadyInitialised
  /-- POLL_ONCE or TRANSMIT outside RawActive (R154). -/
  | notInitialised
  deriving DecidableEq, Repr

/-- The result a request ends with (R21, R156). -/
inductive RequestResult where
  | done
  | sent
  | tooLarge
  | negotiationTimeout
  | txSpaceTimeout
  deriving DecidableEq, Repr

/-- The events of the history H (R29). -/
inductive Event where
  /-- `R8(a, d)`: a read bus frame at `a` that returned `d`. -/
  | r8 (addr : Word) (data : Byte)
  /-- `W8(a, d)`: a write bus frame. -/
  | w8 (addr : Word) (data : Byte)
  /-- `DISPATCH(len, bytes)`: a Frame Dispatch callout. -/
  | dispatch (len : Word) (bytes : List Byte)
  /-- `RET(result)`: a request ended. -/
  | ret (result : RequestResult)
  deriving DecidableEq, Repr

/-- What the bus port does (R20): the three primitives; of an exchange, the byte the engine sends. -/
inductive BusAct where
  | acquire
  | xchg (sent : Byte)
  | release
  deriving DecidableEq, Repr

/-- The bus port (R20): whether exclusive access is asserted, and the record of its primitives (log 17). -/
structure Bus where
  held : Bool
  wire : List BusAct
  deriving DecidableEq, Repr

/-- The INIT bank (R24). `none` is the spec's `unwritten`. -/
structure InitBank where
  st : Option Byte
  nneg : Option Nat
  deriving DecidableEq, Repr

/-- The POLL bank (R24). -/
structure PollBank where
  ir : Option Byte
  sir : Option Byte
  deriving DecidableEq, Repr

/-- The RX bank (R24). -/
structure RxBank where
  rsr : Option Word
  size : Option Word
  rd0 : Option Word
  rcur : Option Word
  rpa : Option Word
  ri : Option Word
  drop : Option Bool
  deriving DecidableEq, Repr

/-- The TX bank (R24). -/
structure TxBank where
  tlen : Option Word
  fsr : Option Word
  nfsr : Option Nat
  wr0 : Option Word
  tpa : Option Word
  ti : Option Word
  deriving DecidableEq, Repr

/-- Every register of a bank unwritten: its value at reset and at the start of its request (R24). -/
def InitBank.unwritten : InitBank := ⟨none, none⟩

/-- The POLL bank with every register unwritten (R24). -/
def PollBank.unwritten : PollBank := ⟨none, none⟩

/-- The RX bank with every register unwritten (R24). -/
def RxBank.unwritten : RxBank := ⟨none, none, none, none, none, none, none⟩

/-- The TX bank with every register unwritten (R24). -/
def TxBank.unwritten : TxBank := ⟨none, none, none, none, none, none⟩

/-- One turn of the device agent, taken with one bus frame (R69): the bytes of device space it changes on its own
before the frame, and, where the frame is a read, the byte it answers; `none` answers what it holds (R51, log 3). -/
structure DeviceTurn where
  changes : List (Word × Byte)
  answer : Option Byte
  deriving DecidableEq, Repr

/-- The device agent: what it holds at the device's addresses (R32 to R46; log 4), its coming turns, and how many
free answers it has drawn. -/
structure Device where
  space : List Host.Cell
  turns : List DeviceTurn
  draws : Nat
  deriving DecidableEq, Repr

/-- The moves of the host (R18, R148) and the engine's reset input (R171), with the time between them; log 8. The host's
reads of FB and LEN are no moves (log 35). -/
inductive HostMove where
  /-- Do nothing while the engine takes one step. DESIGN CHOICE: how a later move falls between two bus frames (log 8). -/
  | pause
  /-- Present a request code as soon as the engine is idle. -/
  | request (code : Byte)
  /-- Present a request code before the engine's next step, whatever it is doing (R154). DESIGN CHOICE: the spec does
  not say when in a running request it can arrive; here it can at every step, after any number of pauses (log 8). -/
  | requestNow (code : Byte)
  /-- Write FB[i] while the engine is idle. -/
  | writeFb (i : Word) (b : Byte)
  /-- Write LEN while the engine is idle. -/
  | writeLen (v : Word)
  /-- Assert the engine's reset input before the engine's next step, whatever it is doing (R171). -/
  | reset
  deriving DecidableEq, Repr

/-- The moves of Frame Dispatch during the callout (R145, R146); log 9. -/
inductive DispatchMove where
  /-- Issue a request: TRANSMIT is admitted, any other is refused (R145). -/
  | request (code : Byte)
  /-- Write FB[i]. -/
  | writeFb (i : Word) (b : Byte)
  /-- Write LEN. -/
  | writeLen (v : Word)
  /-- Return from the callout (R146). -/
  | ret
  deriving DecidableEq, Repr

/-- What the last operation answered to the sequencer line that issued it (the model's own, log 6). -/
inductive OpResult where
  | empty
  | done
  | data (v : Word)
  deriving DecidableEq, Repr

/-- The rest of an operation of several bus frames, between two of them (R15: one step per bus transaction; the model's
own field, log 12). The copies keep their progress in their working registers (R100, R101). -/
inductive Pending where
  /-- READ16 with its high byte read: the READ8 at `lowAddr` is still to come (R94). -/
  | read16Low (lowAddr : Word) (hi : Byte)
  /-- WRITE16 with its high byte written: the WRITE8 of `lo` at `lowAddr` is still to come (R95). -/
  | write16Low (lowAddr : Word) (lo : Byte)
  /-- COPY_IN inside its while loop (R100). -/
  | copyIn
  /-- COPY_OUT inside its while loop (R101). -/
  | copyOut
  deriving DecidableEq, Repr

/-- Why a step stops with a fault. -/
inductive Fault where
  /-- The engine's fault mark is set: it takes no further step (R28, R153). Raised by step. Safe. -/
  | raised (r : FaultReason)
  /-- The host or Frame Dispatch writes a frame-buffer byte that does not exist (R57, log 22). Raised by the agents'
  moves. Safe. -/
  | noSuchByte
  deriving DecidableEq, Repr

/-- Why a step is refused. -/
inductive Refusal where
  /-- An instruction exec has no meaning for. Raised by exec alone. Safe. -/
  | notModelled (mnemonic : String)
  /-- The engine's refusal mark is set: it takes no further step (R28, R154). Raised by step. Safe. -/
  | requestRefused (r : RefusalReason)
  deriving DecidableEq, Repr

/-- The machine's state. -/
structure State where
  /-- The configuration (R13): no step writes it (R31, log 1). -/
  cfg : Config
  /-- The sequencer position (R23), the innermost request's label first. -/
  pc : List Label
  /-- The operation issued and not yet run (the model's own, log 6). -/
  op : Option Instr
  /-- The rest of the operation under way, between two of its bus frames (the model's own, log 12). -/
  pending : Option Pending
  /-- What the last operation answered (the model's own, log 6). -/
  opResult : OpResult
  initBank : InitBank
  poll : PollBank
  rx : RxBank
  tx : TxBank
  mode : Mode
  act : Act
  /-- The frame buffer (R26): the written bytes, by index; an unlisted byte is unwritten. -/
  fb : List Host.Cell
  /-- The shared length register LEN (R27). -/
  len : Option Word
  fault : Option FaultReason
  refused : Option RefusalReason
  /-- The event history H (R29). -/
  h : List Event
  bus : Bus
  /-- The result last returned on the host port (R21, log 16). -/
  hostResult : Option RequestResult
  /-- The result last returned to Frame Dispatch (R150, log 16). -/
  dispatchResult : Option RequestResult
  device : Device
  host : List HostMove
  dispatch : List DispatchMove
  deriving DecidableEq, Repr

/-- The engine at reset (R172) in a given configuration, before a given device agent, host and Frame Dispatch, none
of which the engine's reset touches (R171). -/
def State.resetWith (c : Config) (dev : Device) (host : List HostMove) (dispatch : List DispatchMove) : State where
  cfg := c
  pc := []
  op := none
  pending := none
  opResult := .empty
  initBank := .unwritten
  poll := .unwritten
  rx := .unwritten
  tx := .unwritten
  mode := .reset
  act := .idle
  fb := []
  len := none
  fault := none
  refused := none
  h := []
  bus := ⟨false, []⟩
  hostResult := none
  dispatchResult := none
  device := dev
  host := host
  dispatch := dispatch

/-- The device agent after the device's own reset: every register at its reset value (R173), no turn told. -/
def Device.reset : Device := ⟨[], [], 0⟩

/-- The machine right after reset (R172). -/
def State.reset : State := State.resetWith Config.default Device.reset [] []

end Sys2Proof.Machine
end

