-- ==== Sys2Proof/Machine/Device.lean ====
section
/-! DEFINITION. The device agent as far as the spec states it (10_state.md R32 to R51, 20_memory.md R63 to R65, R69, 70_reset_and_hazards.md R173): its registers' reset values, its own turns, what a read frame is answered, and what a write frame does to what it holds. -/

namespace Sys2Proof.Machine

/-- The two bytes of a 16-bit register at `a`, the high byte first (R59). -/
def registerCells (a v : Word) : List Host.Cell :=
  [(a.toNat, hiByte v), ((nextAddr a).toNat, loByte v)]

/-- The device's registers at their reset values (R173). PRESUMED: the spec marks them as the W5100's (log 2).
TX-free-size resets to the window size (R41). -/
def deviceResetCells (c : Config) : List Host.Cell :=
  [(c.regmap.aMr.toNat, 0x00), (c.regmap.aIr.toNat, 0x00), (c.regmap.aImr.toNat, 0x00)] ++
  registerCells 0x0017 0x07D0 ++ [(0x0019, 0x08), (0x001A, 0x55), (0x001B, 0x55)] ++
  [((s0Mr c.regmap).toNat, 0x00), ((s0Cr c.regmap).toNat, 0x00), ((s0Ir c.regmap).toNat, 0x00), ((s0Sr c.regmap).toNat, 0x00)] ++
  registerCells (s0TxFsr c.regmap) (c.txMask + 1) ++ registerCells (s0TxRd c.regmap) 0x0000 ++
  registerCells (s0TxWr c.regmap) 0x0000 ++ registerCells (s0RxRsr c.regmap) 0x0000 ++ registerCells (s0RxRd c.regmap) 0x0000

/-- What an unlisted device address holds: a register its reset value (R173), every other address no value: window
contents are unspecified at reset (R46, R173) and the rest is not described (log 4). -/
def deviceResetByte (c : Config) (a : Nat) : Option Byte := Memory.lookup (deviceResetCells c) a

/-- The byte the device holds at `a`, if it has one. -/
def Device.held (c : Config) (dev : Device) (a : Word) : Option Byte :=
  Memory.read (deviceResetByte c) dev.space a.toNat

/-- The device holds `b` at `a` from now on. -/
def Device.store (c : Config) (dev : Device) (a : Word) (b : Byte) : Device :=
  { dev with space := Memory.write (deviceResetByte c) dev.space a.toNat b }

/-- The device's own changes, in order. -/
def Device.change (c : Config) : List (Word × Byte) → Device → Device
  | [], dev => dev
  | (a, b) :: cs, dev => Device.change c cs (dev.store c a b)

/-- The device's own steps before a bus frame (R69): the changes of its coming turn, if one is told. -/
def Device.takeTurn (c : Config) (dev : Device) : Device :=
  match dev.turns with
  | [] => dev
  | t :: ts => { Device.change c t.changes dev with turns := ts }

/-- The byte the device answers a read of `a`, where its turn or what it holds tells it (R51). -/
def Device.told (c : Config) (dev : Device) (a : Word) : Option Byte :=
  match dev.turns with
  | [] => none
  | t :: _ =>
    match t.answer with
    | some b => some b
    | none => (dev.takeTurn c).held c a

/-- A read frame at `a`: the byte answered and the device after it. A byte nothing tells is a free value (R51:
any byte, for any read, at any time; log 3). A read changes nothing of what the device holds (R48, R64). -/
def Device.read (c : Config) (a : Word) (dev : Device) : Byte × Device :=
  match dev.told c a with
  | some b => (b, dev.takeTurn c)
  | none => (Config.deviceByte dev.draws, { dev.takeTurn c with draws := dev.draws + 1 })

/-- The addresses of the registers the device owns: read-only (R40, R41, R44) or device-owned (R42); log 23. -/
def deviceOwned (rm : RegMap) (a : Word) : Bool :=
  [s0Sr rm, s0TxFsr rm, nextAddr (s0TxFsr rm), s0TxRd rm, nextAddr (s0TxRd rm), s0RxRsr rm, nextAddr (s0RxRsr rm)].contains a

/-- What a write of `v` at `a` does to what the device holds (R64): a soft reset puts every register at its reset
value (R32, R173), the interrupt registers clear the flags whose bits are 1 (R47), a register the device owns keeps
its value, and any other byte is stored; what a command does later is the device's own steps (R50, log 28). -/
def Device.take (c : Config) (a : Word) (v : Byte) (dev : Device) : Device :=
  if a = c.regmap.aMr ∧ flagSet v c.regmap.mrRst then { dev with space := [] }
  else if a = c.regmap.aIr ∨ a = s0Ir c.regmap then
    match dev.held c a with
    | some old => dev.store c a (writeOneToClear old v)
    | none => dev
  else if deviceOwned c.regmap a then dev
  else dev.store c a v

/-- A write frame of `v` at `a`: the device's own steps, then the write. DESIGN CHOICE: the write is taken also while a soft
reset is in progress, where the spec leaves open whether the device honours the frame (R184, N13; log 34). DESIGN CHOICE:
the byte sent is the byte the device gets; the spec lets a corrupted exchange store another, as the device agent's business
(R96, I1), and here that shows as a change of the device's next turn (log 36). -/
def Device.write (c : Config) (a : Word) (v : Byte) (dev : Device) : Device := (dev.takeTurn c).take c a v

end Sys2Proof.Machine
end

