-- ==== Sys2Proof/Machine/Ops.lean ====
section
/-! DEFINITION. The named operations every meaning is built from: the bus frames (40_transport.md R91 to R95), the frame buffer (10_state.md R26), the fault and refusal marks (60_exceptions.md R153, R154), moving the sequencer and ending a request (10_state.md R23, R30), and the engine's reset (70_reset_and_hazards.md R171). -/

namespace Sys2Proof.Machine

/-- The answer of a meaning or a sequencer line. -/
abbrev Answer := Host.Outcome State Fault Refusal

/-! The bus port (R20). -/

/-- `acquire()`: assert exclusive bus access. -/
def Bus.acquire (b : Bus) : Bus := ⟨true, b.wire ++ [.acquire]⟩

/-- `xchg(b_out)`: exchange one byte; what is received in bytes 0 to 2 of a frame is ignored (R72, R73). -/
def Bus.xchg (sent : Byte) (b : Bus) : Bus := { b with wire := b.wire ++ [.xchg sent] }

/-- `release()`: deassert. -/
def Bus.release (b : Bus) : Bus := ⟨false, b.wire ++ [.release]⟩

/-- One bracketed four-byte frame on the bus port (R71, R75). -/
def Bus.frame (op : Byte) (a : Word) (d : Byte) (b : Bus) : Bus :=
  ((((b.acquire.xchg op).xchg (hiByte a)).xchg (loByte a)).xchg d).release

/-- `emit(e)`: append an event to the history (R29). -/
def State.emit (e : Event) (s : State) : State := { s with h := s.h ++ [e] }

/-- READ8(a) -> d (R92): one read frame, the device's answer, and the event R8(a, d). -/
def busRead (a : Word) (s : State) : Byte × State :=
  ((s.device.read s.cfg a).1,
    ({ s with bus := s.bus.frame s.cfg.opRead a 0x00, device := (s.device.read s.cfg a).2 } : State).emit
      (.r8 a (s.device.read s.cfg a).1))

/-- WRITE8(a, d) (R93): one write frame and the event W8(a, d). -/
def busWrite (a : Word) (d : Byte) (s : State) : State :=
  ({ s with bus := s.bus.frame s.cfg.opWrite a d, device := s.device.write s.cfg a d } : State).emit (.w8 a d)

/-! The marks (R28). Taking an error is one of these two operations; nothing else of the state changes (R153, R154). -/

/-- `raise Fault(reason)` (R153). -/
def State.raise (r : FaultReason) (s : State) : State := { s with fault := some r }

/-- `refuse(reason)` (R154). -/
def State.refuse (r : RefusalReason) (s : State) : State := { s with refused := some r }

/-- Read a working register, LEN or an FB byte: an unwritten one raises Fault(UnwrittenRead) (R24, R26, R27). -/
def withWritten {α : Type} (x : Option α) (s : State) (k : α → Answer) : Answer :=
  match x with
  | some v => k v
  | none => .next (s.raise .unwrittenRead)

/-! The frame buffer (R26). -/

/-- An unlisted byte of the frame buffer is unwritten (R26). -/
def fbUnlisted (_ : Nat) : Option Byte := none

/-- `FB[i]`: the byte, or none while nothing has written it. -/
def State.readFb (s : State) (i : Nat) : Option Byte := Memory.read fbUnlisted s.fb i

/-- `FB[i] <- b`. -/
def State.writeFb (i : Word) (b : Byte) (s : State) : State :=
  { s with fb := Memory.write fbUnlisted s.fb i.toNat b }

/-- `FB[i], FB[i+1], ...`, `n` bytes: a byte beyond CAP does not exist (R57) and an unwritten one cannot be read
(R26); log 21. -/
def State.readFbBytes (s : State) : Nat → Nat → Except FaultReason (List Byte)
  | _, 0 => .ok []
  | i, n + 1 =>
    if s.cfg.cap.toNat ≤ i then .error .frameBufferBounds
    else
      match s.readFb i with
      | none => .error .unwrittenRead
      | some b =>
        match s.readFbBytes (i + 1) n with
        | .ok bs => .ok (b :: bs)
        | .error r => .error r

/-! The sequencer (R23) and the request level (R30). -/

/-- `pc <- label`: replace the top label (R23); with no request level there is none to replace, and the label stands
alone. The line that follows has answered nothing yet. -/
def State.goto (l : Label) (s : State) : State := { s with pc := l :: s.pc.tail, opResult := .empty }

/-- The sequencer line issues an operation, which the next step runs (log 6). -/
def State.issue (i : Instr) (s : State) : State := { s with op := some i }

/-- An operation answers the line that issued it (log 6). -/
def State.answer (r : OpResult) (s : State) : State := { s with opResult := r }

/-- An operation of several bus frames stops between two of them; the next step takes up the rest (R15, log 12). -/
def State.pend (r : Pending) (s : State) : State := { s with pending := some r }

/-- A request enters its first line: a new request level on the stack (R23, R30). -/
def State.enter (a : Act) (l : Label) (s : State) : State :=
  { s with act := a, pc := l :: s.pc, opResult := .empty }

/-- The level a request returns to: the callout for a nested TRANSMIT, idle for any other (R107, R115, R134). -/
def Act.restored : Act → Act
  | .inNestedTransmit => .inDispatch
  | .idle => .idle
  | .inInit => .idle
  | .inPoll => .idle
  | .inDispatch => .idle
  | .inTransmit => .idle

/-- A request ends: `act` is restored, its level leaves the stack, `RET(result)` is emitted, and the result goes to Frame
Dispatch for a nested TRANSMIT (R150), to the host for any other (R21). DESIGN CHOICE: a TRANSMIT the host itself presents
inside the callout is admitted by `act` alone (R154) and its result goes to Frame Dispatch too, where R21 and R151 speak of
the issuer (log 37). -/
def State.finish (r : RequestResult) (s : State) : State :=
  { s with
    act := s.act.restored
    pc := s.pc.tail
    opResult := .empty
    h := s.h ++ [.ret r]
    hostResult := if s.act = .inNestedTransmit then s.hostResult else some r
    dispatchResult := if s.act = .inNestedTransmit then some r else s.dispatchResult }

/-- The engine's reset input (R171): every engine state at its reset value; the configuration, the device, and the
moves the host and Frame Dispatch still have to make are not the engine's and stay. -/
def State.engineReset (s : State) : State := State.resetWith s.cfg s.device s.host s.dispatch

end Sys2Proof.Machine
end

