-- ==== Sys2Proof/Machine/Ring.lean ====
section
/-! DEFINITION. The ring-buffer pointer and wraparound functions (41_ring.md R97, R98, R102): physical address, cursor advance, window check, and the two window sizes compared as integers. -/

namespace Sys2Proof.Machine

/-- PHYS(BASE, MASK, p): the physical address of a logical pointer (R97). -/
def phys (base mask p : Word) : Word := base + (p &&& mask)

/-- NEXT(BASE, MASK, a): the cursor after the byte at `a`; the test is made on the address just accessed (R98). -/
def nextCursor (base mask a : Word) : Word := if a = base + mask then base else a + 1

/-- `BASE <= a <= BASE + MASK` (R100, R101). -/
def inWindow (base mask a : Word) : Bool := base ≤ a && a ≤ base + mask

/-- The RX logical cursor: the read pointer past the length header (R128). -/
def rxCursor (c : Config) (rd0 : Word) : Word := rd0 + c.rxHdr

/-- The frame length in a received-size reading (R126). -/
def rxSize (c : Config) (rsr : Word) : Word := rsr - c.rxHdr

/-- The RX read pointer to commit: past header and payload (R130). -/
def rxCommit (c : Config) (rd0 size : Word) : Word := rd0 + c.rxHdr + size

/-- The TX write pointer to commit (R139). -/
def txCommit (wr0 tlen : Word) : Word := wr0 + tlen

/-- A received frame exceeds the buffer, unsigned (R129). -/
def rxOversized (c : Config) (size : Word) : Bool := c.cap < size

/-- A transmit exceeds the TX window, compared as integers (R135). -/
def txOversized (c : Config) (tlen : Word) : Bool := decide (c.txMask.toNat + 1 < tlen.toNat)

end Sys2Proof.Machine
end

