-- ==== Sys2Proof/Machine/Sequencer.lean ====
section
/-! DEFINITION. The sequencer's labelled lines (10_state.md R23): I1 to I8 of INIT (42_init.md R107), P1 to P5 of POLL_ONCE (43_poll.md R115), D1 to D9 of RECEIVE_DRAIN (44_receive.md R125), T1 to T7 of TRANSMIT (45_transmit.md R134). A line that performs an operation issues it, and goes on when the operation has answered (log 6). -/

namespace Sys2Proof.Machine

/-- A line that issues an operation and goes on with `k` once it is done. -/
def await (i : Instr) (s : State) (k : Answer) : Answer :=
  match s.opResult with
  | .empty => .next (s.issue i)
  | .done => k
  | .data _ => k

/-- A line that issues a read and goes on with its value. -/
def awaitData (i : Instr) (s : State) (k : Word → Answer) : Answer :=
  match s.opResult with
  | .empty => .next (s.issue i)
  | .done => .next (s.issue i)
  | .data v => k v

/-- Whether a bound is exhausted after `n` iterations; INF never is (R112, R136). -/
def boundReached (bound : Option Nat) (n : Nat) : Bool := bound == some n

/-! INIT (R107). -/

/-- I1: the soft reset (R108). -/
def lineI1 (s : State) : Answer := await .mrReset s (.next (s.goto .i2))

/-- I2: mask all interrupts; the mode is ModeNegotiation from here (R108, R113). -/
def lineI2 (s : State) : Answer :=
  await .imrClear s
    (.next ({ s with mode := .modeNegotiation, initBank := { s.initBank with nneg := some 0 } }.goto .i3))

/-- I3: the negotiation bound (R112). -/
def lineI3 (s : State) : Answer :=
  withWritten s.initBank.nneg s fun n =>
    if boundReached s.cfg.negBound n then .next (s.finish .negotiationTimeout)
    else .next ({ s with initBank := { s.initBank with nneg := some (n + 1) } }.goto .i4)

/-- I4: raw-frame mode (R109). -/
def lineI4 (s : State) : Answer := await .setMacraw s (.next (s.goto .i5))

/-- I5: OPEN (R109). -/
def lineI5 (s : State) : Answer := await .cmdOpen s (.next (s.goto .i6))

/-- I6: read the status (R109). -/
def lineI6 (s : State) : Answer :=
  awaitData .readSr s fun v => .next ({ s with initBank := { s.initBank with st := some (loByte v) } }.goto .i7)

/-- I7: success is equality of the whole status byte (R110). -/
def lineI7 (s : State) : Answer :=
  withWritten s.initBank.st s fun st =>
    if st = s.cfg.regmap.ssrMacraw then .next ({ s with mode := .rawActive }.finish .done)
    else .next (s.goto .i8)

/-- I8: CLOSE and the next iteration (R111). -/
def lineI8 (s : State) : Answer := await .cmdClose s (.next (s.goto .i3))

/-! POLL_ONCE (R115). -/

/-- P1: read the global register; zero ends the poll (R116). -/
def lineP1 (s : State) : Answer :=
  awaitData .readIr s fun v =>
    if loByte v = 0x00 then .next ({ s with poll := { s.poll with ir := some (loByte v) } }.finish .done)
    else .next ({ s with poll := { s.poll with ir := some (loByte v) } }.goto .p2)

/-- P2: read the channel register when the channel-0 bit is set, else go to the write-back (R117, R123). -/
def lineP2 (s : State) : Answer :=
  withWritten s.poll.ir s fun ir =>
    if flagSet ir s.cfg.regmap.irS0 then
      awaitData .readS0Ir s fun v => .next ({ s with poll := { s.poll with sir := some (loByte v) } }.goto .p3)
    else .next (s.goto .p5)

/-- P3: acknowledge send-complete (R118). -/
def lineP3 (s : State) : Answer :=
  withWritten s.poll.sir s fun sir =>
    if flagSet sir s.cfg.regmap.sirSendOk then await .ackSendOk s (.next (s.goto .p4))
    else .next (s.goto .p4)

/-- P4: service receive-ready: RECEIVE_DRAIN moves the sequencer to D1 (R119). -/
def lineP4 (s : State) : Answer :=
  withWritten s.poll.sir s fun sir =>
    if flagSet sir s.cfg.regmap.sirRecv then .next (s.issue .receiveDrain)
    else .next (s.goto .p5)

/-- P5: write the snapshot back; the poll is done (R120). -/
def lineP5 (s : State) : Answer :=
  withWritten s.poll.ir s fun ir => await (.ackIr ir) s (.next (s.finish .done))

/-! RECEIVE_DRAIN (R125). -/

/-- D1: the received size and the frame length (R126). -/
def lineD1 (s : State) : Answer :=
  awaitData (.read16 (s0RxRsr s.cfg.regmap)) s fun v =>
    .next ({ s with rx := { s.rx with rsr := some v, size := some (rxSize s.cfg v) } }.goto .d2)

/-- D2: the read pointer and the cursor past the header (R128). -/
def lineD2 (s : State) : Answer :=
  awaitData (.read16 (s0RxRd s.cfg.regmap)) s fun v =>
    .next ({ s with rx := { s.rx with rd0 := some v, rcur := some (rxCursor s.cfg v) } }.goto .d3)

/-- D3: an oversized frame is dropped (R129). -/
def lineD3 (s : State) : Answer :=
  withWritten s.rx.size s fun n =>
    .next ({ s with rx := { s.rx with drop := some (rxOversized s.cfg n) } }.goto .d4)

/-- D4: copy the frame unless it is dropped (R125, R129). -/
def lineD4 (s : State) : Answer :=
  withWritten s.rx.drop s fun drop =>
    if drop then .next (s.goto .d5) else await .copyIn s (.next (s.goto .d5))

/-- D5: commit the read pointer, dropped or not (R130). -/
def lineD5 (s : State) : Answer :=
  withWritten s.rx.rd0 s fun rd0 =>
  withWritten s.rx.size s fun n =>
    await (.write16 (s0RxRd s.cfg.regmap) (rxCommit s.cfg rd0 n)) s (.next (s.goto .d6))

/-- D6: RECV (R131). -/
def lineD6 (s : State) : Answer := await .cmdRecv s (.next (s.goto .d7))

/-- D7: acknowledge receive-ready before the callout, where the configuration says so (R127). -/
def lineD7 (s : State) : Answer :=
  if s.cfg.recvAckPoint = .beforeDispatch then await .ackRecv s (.next (s.goto .d8)) else .next (s.goto .d8)

/-- D8: hand the frame to Frame Dispatch unless it is dropped; DISPATCH answers when the callout returns (R132). -/
def lineD8 (s : State) : Answer :=
  withWritten s.rx.drop s fun drop =>
  withWritten s.rx.size s fun n =>
    if drop then .next (s.goto .d9)
    else
      match s.opResult with
      | .empty => .next ({ s with len := some n }.issue .dispatch)
      | .done => .next (s.goto .d9)
      | .data _ => .next (s.goto .d9)

/-- D9: acknowledge receive-ready after the callout, where the configuration says so; then POLL_ONCE's P5 (R127). -/
def lineD9 (s : State) : Answer :=
  if s.cfg.recvAckPoint = .afterDispatch then await .ackRecv s (.next (s.goto .p5)) else .next (s.goto .p5)

/-! TRANSMIT (R134). -/

/-- T1: a frame larger than the TX window is not sent (R135). -/
def lineT1 (s : State) : Answer :=
  withWritten s.tx.tlen s fun n =>
    if txOversized s.cfg n then .next (s.finish .tooLarge) else .next (s.goto .t2)

/-- T2: no free-space read made yet (R136). -/
def lineT2 (s : State) : Answer := .next ({ s with tx := { s.tx with nfsr := some 0 } }.goto .t3)

/-- T3: the free-space wait: the bound, one READ16, and again while the space is below the length (R136). -/
def lineT3 (s : State) : Answer :=
  withWritten s.tx.nfsr s fun k =>
  withWritten s.tx.tlen s fun n =>
    match s.opResult with
    | .empty =>
      if boundReached s.cfg.fsrBound k then .next (s.finish .txSpaceTimeout)
      else .next (s.issue (.read16 (s0TxFsr s.cfg.regmap)))
    | .done => .next (s.issue (.read16 (s0TxFsr s.cfg.regmap)))
    | .data v =>
      .next ({ s with tx := { s.tx with fsr := some v, nfsr := some (k + 1) } }.goto (if v < n then .t3 else .t4))

/-- T4: the write pointer (R137). -/
def lineT4 (s : State) : Answer :=
  awaitData (.read16 (s0TxWr s.cfg.regmap)) s fun v =>
    .next ({ s with tx := { s.tx with wr0 := some v } }.goto .t5)

/-- T5: the copy (R138). -/
def lineT5 (s : State) : Answer := await .copyOut s (.next (s.goto .t6))

/-- T6: commit the write pointer (R139). -/
def lineT6 (s : State) : Answer :=
  withWritten s.tx.wr0 s fun wr0 =>
  withWritten s.tx.tlen s fun n =>
    await (.write16 (s0TxWr s.cfg.regmap) (txCommit wr0 n)) s (.next (s.goto .t7))

/-- T7: SEND; the request is done without waiting for the send to complete (R140, R141). -/
def lineT7 (s : State) : Answer := await .cmdSend s (.next (s.finish .sent))

end Sys2Proof.Machine
end

