-- ==== Sys2Proof/Machine/Agents.lean ====
section
/-! DEFINITION. Which agent moves next and how (10_state.md R15 to R19): the engine's sequencer at its label, the host while the engine is idle (46_dispatch_host.md R148), and Frame Dispatch inside the callout (R145, R146). -/

namespace Sys2Proof.Machine

/-- The frame-buffer byte `i` exists (R57); a write outside it stops by name (log 22). -/
def agentWriteFb (i : Word) (b : Byte) (s : State) : Answer :=
  if i < s.cfg.cap then .next (s.writeFb i b) else .fault .noSuchByte

/-- A request code is presented on the host port or by Frame Dispatch: the engine decodes it and takes it up (R79, R87). -/
def present (code : Byte) (s : State) : State := s.issue (decodeRequest code)

/-- The host's next move while the engine is idle; with none told, the engine stays idle (R148). A requestNow or a reset
at the head is taken before this, by nextMove and by step. DESIGN CHOICE: a host read of FB or LEN between requests (R21,
R148) is no move, changes nothing and raises nothing, unwritten or not; R153 speaks of any read of an FB byte, R26 and
R27 of TRANSMIT's (log 35). -/
def hostMove (s : State) : Answer :=
  match s.host with
  | [] => .next s
  | .pause :: ms => .next { s with host := ms }
  | .request code :: ms => .next (present code { s with host := ms })
  | .requestNow code :: ms => .next (present code { s with host := ms })
  | .writeFb i b :: ms => agentWriteFb i b { s with host := ms }
  | .writeLen v :: ms => .next { s with host := ms, len := some v }
  | .reset :: ms => .next { s with host := ms }.engineReset

/-- The callout returns (R144, R146): its level leaves the stack, `act <- InPoll`, and DISPATCH has answered. -/
def State.returnFromCallout (s : State) : State :=
  { s with act := .inPoll, pc := s.pc.tail, opResult := .done }

/-- Frame Dispatch's next move inside the callout (R145); with none told it has not returned yet, and the engine
waits (R146, R155). -/
def dispatchMove (s : State) : Answer :=
  match s.dispatch with
  | [] => .next s
  | .request code :: ms => .next (present code { s with dispatch := ms })
  | .writeFb i b :: ms => agentWriteFb i b { s with dispatch := ms }
  | .writeLen v :: ms => .next { s with dispatch := ms, len := some v }
  | .ret :: ms => .next { s with dispatch := ms }.returnFromCallout

/-- The line at a label (R23). -/
def runLine : Label → State → Answer
  | .i1, s => lineI1 s
  | .i2, s => lineI2 s
  | .i3, s => lineI3 s
  | .i4, s => lineI4 s
  | .i5, s => lineI5 s
  | .i6, s => lineI6 s
  | .i7, s => lineI7 s
  | .i8, s => lineI8 s
  | .p1, s => lineP1 s
  | .p2, s => lineP2 s
  | .p3, s => lineP3 s
  | .p4, s => lineP4 s
  | .p5, s => lineP5 s
  | .d1, s => lineD1 s
  | .d2, s => lineD2 s
  | .d3, s => lineD3 s
  | .d4, s => lineD4 s
  | .d5, s => lineD5 s
  | .d6, s => lineD6 s
  | .d7, s => lineD7 s
  | .d8, s => lineD8 s
  | .d9, s => lineD9 s
  | .dispatch, s => dispatchMove s
  | .t1, s => lineT1 s
  | .t2, s => lineT2 s
  | .t3, s => lineT3 s
  | .t4, s => lineT4 s
  | .t5, s => lineT5 s
  | .t6, s => lineT6 s
  | .t7, s => lineT7 s

/-- The host asserts the engine's reset input (R171). -/
def State.resetAsserted (s : State) : Bool :=
  match s.host with
  | .reset :: _ => true
  | _ => false

/-- The engine's reset, the assertion taken off the host's moves (R171). -/
def State.takeReset (s : State) : State := { s with host := s.host.tail }.engineReset

/-- A request presented before the engine's next step, without waiting for it to be idle (R154). DESIGN CHOICE: the spec
does not say when in a running request it arrives; it can come at every step (log 8). -/
def State.presentedNow (s : State) : Option Byte :=
  match s.host with
  | .requestNow code :: _ => some code
  | _ => none

/-- The host's moves once the engine has taken a step: a pause at their head is over (log 8). -/
def afterPause : List HostMove → List HostMove
  | .pause :: ms => ms
  | ms => ms

/-- The engine takes a step while the host pauses or waits (log 8). -/
def State.passTime (s : State) : State := { s with host := afterPause s.host }

/-- The move between two operations: the host while the engine is idle, Frame Dispatch inside the callout, or the
sequencer line at the top label. -/
def advance (s : State) : Answer :=
  match s.pc with
  | [] => hostMove s
  | l :: _ => runLine l s.passTime

end Sys2Proof.Machine
end

