-- ==== Sys2Proof/Machine/Copy.lean ====
section
/-! DEFINITION. The two byte-copy loops (41_ring.md R100, R101): COPY_IN from the RX window to the frame buffer, COPY_OUT from the frame buffer to the TX window. One turn of a loop is one step with at most one bus frame (10_state.md R15). Each faults before the bus frame of the byte it cannot move, so the frames already sent stay in H (R153). -/

namespace Sys2Proof.Machine

/-- `x[rpa] <- pa; x[ri] <- i`. -/
def State.setRxCursor (pa i : Word) (s : State) : State := { s with rx := { s.rx with rpa := some pa, ri := some i } }

/-- `x[tpa] <- pa; x[ti] <- i`. -/
def State.setTxCursor (pa i : Word) (s : State) : State := { s with tx := { s.tx with tpa := some pa, ti := some i } }

/-- One byte of COPY_IN: `FB[i] <- READ8(pa)` and the advance of both cursors (R98, R100). -/
def copyInByte (pa i : Word) (s : State) : State :=
  ((busRead pa s).2.writeFb i (busRead pa s).1).setRxCursor (nextCursor s.cfg.rxBase s.cfg.rxMask pa) (i + 1)

/-- One turn of COPY_IN's while loop (R100): at most one bus frame, then the rest is pending (R15). An index beyond CAP,
which the caller has checked, has no byte to write: FrameBufferBounds (log 13). -/
def copyInTurn (s : State) : Answer :=
  withWritten s.rx.size s fun n =>
  withWritten s.rx.rpa s fun pa =>
  withWritten s.rx.ri s fun i =>
    if n ≤ i then .next (s.answer .done)
    else if !inWindow s.cfg.rxBase s.cfg.rxMask pa then .next (s.raise .protocolDesync)
    else if s.cfg.cap ≤ i then .next (s.raise .frameBufferBounds)
    else .next ((copyInByte pa i s).pend .copyIn)

/-- COPY_IN(p, n) with p = x[rcur] and n = x[size] (R100, R125): both cursors set, and the loop's first turn. -/
def execCopyIn (s : State) : Answer :=
  withWritten s.rx.rcur s fun p =>
  withWritten s.rx.size s fun _ =>
    copyInTurn (s.setRxCursor (phys s.cfg.rxBase s.cfg.rxMask p) 0)

/-- One byte of COPY_OUT: `WRITE8(pa, b)` and the advance of both cursors (R98, R101). -/
def copyOutByte (pa i : Word) (b : Byte) (s : State) : State :=
  (busWrite pa b s).setTxCursor (nextCursor s.cfg.txBase s.cfg.txMask pa) (i + 1)

/-- One turn of COPY_OUT's while loop (R101): at most one bus frame, then the rest is pending (R15). -/
def copyOutTurn (s : State) : Answer :=
  withWritten s.tx.tlen s fun n =>
  withWritten s.tx.tpa s fun pa =>
  withWritten s.tx.ti s fun i =>
    if n ≤ i then .next (s.answer .done)
    else if s.cfg.cap ≤ i then .next (s.raise .frameBufferBounds)
    else
      withWritten (s.readFb i.toNat) s fun b =>
        if !inWindow s.cfg.txBase s.cfg.txMask pa then .next (s.raise .protocolDesync)
        else .next ((copyOutByte pa i b s).pend .copyOut)

/-- COPY_OUT(p, n) with p = x[wr0] and n = x[tlen] (R101, R134): both cursors set, and the loop's first turn. -/
def execCopyOut (s : State) : Answer :=
  withWritten s.tx.wr0 s fun p =>
  withWritten s.tx.tlen s fun _ =>
    copyOutTurn (s.setTxCursor (phys s.cfg.txBase s.cfg.txMask p) 0)

end Sys2Proof.Machine
end

