-- ==== Sys2Proof/Machine/Transport.lean ====
section
/-! DEFINITION. The register-transport family (40_transport.md R91 to R95): READ8, WRITE8, READ16, WRITE16. Each answers the line that issued it with its result; a 16-bit operation is two steps, one for each bus frame (10_state.md R15), with its second frame pending in between. -/

namespace Sys2Proof.Machine

/-- Run READ8(a) and answer its byte, zero-extended (R92, R85). -/
def runRead (a : Word) (s : State) : Answer :=
  .next ((busRead a s).2.answer (.data (zeroExtend (busRead a s).1)))

/-- Run WRITE8(a, d) and answer that it is done (R93). -/
def runWrite (a : Word) (d : Byte) (s : State) : Answer := .next ((busWrite a d s).answer .done)

/-- READ8(a) (R92). -/
def execRead8 (a : Word) (s : State) : Answer := runRead a s

/-- WRITE8(a, d) (R93). -/
def execWrite8 (a : Word) (d : Byte) (s : State) : Answer := runWrite a d s

/-- READ16(a) (R94): READ8 of the high byte, the low byte's frame pending. Not atomic: the device, the reset input and
a request can come between the two frames (R63, R69, R171). -/
def execRead16 (a : Word) (s : State) : Answer :=
  .next ((busRead a s).2.pend (.read16Low (nextAddr a) (busRead a s).1))

/-- The second frame of READ16: READ8 of the low byte, and the value `{hi, lo}` answered (R94). -/
def resumeRead16 (lowAddr : Word) (hi : Byte) (s : State) : Answer :=
  .next ((busRead lowAddr s).2.answer (.data (concatBytes hi (busRead lowAddr s).1)))

/-- WRITE16(a, v) (R95): WRITE8 of the high byte, the low byte's frame pending. -/
def execWrite16 (a v : Word) (s : State) : Answer :=
  .next ((busWrite a (hiByte v) s).pend (.write16Low (nextAddr a) (loByte v)))

/-- The second frame of WRITE16: WRITE8 of the low byte (R95). -/
def resumeWrite16 (lowAddr : Word) (lo : Byte) (s : State) : Answer := runWrite lowAddr lo s

end Sys2Proof.Machine
end

