-- ==== Sys2Proof/Machine/Named.lean ====
section
/-! DEFINITION. The named bus frames (30_encoding.md R78 and the table's three named reads): each is a WRITE8 or READ8 with the address and value REGMAP gives it. -/

namespace Sys2Proof.Machine

/-- MR_RESET: the soft reset of the device, only the soft-reset bit set (R108). -/
def execMrReset (s : State) : Answer := runWrite s.cfg.regmap.aMr s.cfg.regmap.mrRst s

/-- IMR_CLEAR: mask all interrupts (R108). -/
def execImrClear (s : State) : Answer := runWrite s.cfg.regmap.aImr 0x00 s

/-- SET_MACRAW: channel 0 into raw-frame mode (R109). -/
def execSetMacraw (s : State) : Answer := runWrite (s0Mr s.cfg.regmap) s.cfg.regmap.smrMacraw s

/-- CMD_OPEN (R109). -/
def execCmdOpen (s : State) : Answer := runWrite (s0Cr s.cfg.regmap) s.cfg.regmap.cmdOpen s

/-- CMD_CLOSE (R111). -/
def execCmdClose (s : State) : Answer := runWrite (s0Cr s.cfg.regmap) s.cfg.regmap.cmdClose s

/-- CMD_RECV: release the consumed ring space (R131). -/
def execCmdRecv (s : State) : Answer := runWrite (s0Cr s.cfg.regmap) s.cfg.regmap.cmdRecv s

/-- CMD_SEND (R140). -/
def execCmdSend (s : State) : Answer := runWrite (s0Cr s.cfg.regmap) s.cfg.regmap.cmdSend s

/-- ACK_SEND_OK: acknowledge send-complete and no other flag (R118). -/
def execAckSendOk (s : State) : Answer := runWrite (s0Ir s.cfg.regmap) s.cfg.regmap.sirSendOk s

/-- ACK_RECV: acknowledge receive-ready and no other flag (R127). -/
def execAckRecv (s : State) : Answer := runWrite (s0Ir s.cfg.regmap) s.cfg.regmap.sirRecv s

/-- ACK_IR(v): write the global snapshot back (R120). -/
def execAckIr (v : Byte) (s : State) : Answer := runWrite s.cfg.regmap.aIr v s

/-- READ_SR: the channel-0 status register (R109). -/
def execReadSr (s : State) : Answer := runRead (s0Sr s.cfg.regmap) s

/-- READ_IR: the global interrupt register (R116). -/
def execReadIr (s : State) : Answer := runRead s.cfg.regmap.aIr s

/-- READ_S0_IR: the channel-0 interrupt register (R117). -/
def execReadS0Ir (s : State) : Answer := runRead (s0Ir s.cfg.regmap) s

end Sys2Proof.Machine
end

