-- ==== Sys2Proof/Machine/Receive.lean ====
section
/-! DEFINITION. The receive side's two internal operations: RECEIVE_DRAIN (44_receive.md R125), entered from POLL_ONCE's P4, and DISPATCH (46_dispatch_host.md R144), the callout. Both can run without end (R155), so each is entered in one step and its lines or its callout go on from there (log 5). -/

namespace Sys2Proof.Machine

/-- RECEIVE_DRAIN (R125): the sequencer goes on at D1, at POLL_ONCE's own level. -/
def execReceiveDrain (s : State) : Answer := .next (s.goto .d1)

/-- The callout begins (R144): the event, `act = InDispatch`, and a level of its own on the stack (R23). -/
def State.callout (n : Word) (bs : List Byte) (s : State) : State :=
  (s.emit (.dispatch n bs)).enter .inDispatch .dispatch

/-- DISPATCH (R144): `emit(DISPATCH(LEN, FB[0..LEN-1]))`, then FB and LEN are Frame Dispatch's until it returns. -/
def execDispatch (s : State) : Answer :=
  withWritten s.len s fun n =>
    match s.readFbBytes 0 n.toNat with
    | .error r => .next (s.raise r)
    | .ok bs => .next (s.callout n bs)

end Sys2Proof.Machine
end

