-- ==== Sys2Proof/Machine/Requests.lean ====
section
/-! DEFINITION. The host requests (30_encoding.md R79, R87; 60_exceptions.md R154): the admission line of INIT (42_init.md R107 I0), POLL_ONCE (43_poll.md R115 P0) and TRANSMIT (45_transmit.md R134 T0), and the refusal of a reserved code. An admitted request enters its first line and the sequencer runs it from there; a request can run without end (R155), so no request is one step (log 5). -/

namespace Sys2Proof.Machine

/-- INIT, line I0 (R107): admitted in Reset and in ModeNegotiation while the engine is idle. -/
def execInit (s : State) : Answer :=
  if s.act ≠ .idle then .next (s.refuse .reentered)
  else if s.mode = .rawActive then .next (s.refuse .alreadyInitialised)
  else .next ({ s with initBank := .unwritten }.enter .inInit .i1)

/-- POLL_ONCE, line P0 (R115): admitted in RawActive while the engine is idle. The POLL and RX banks are unwritten
at its start (R24, log 19). -/
def execPollOnce (s : State) : Answer :=
  if s.act ≠ .idle then .next (s.refuse .reentered)
  else if s.mode ≠ .rawActive then .next (s.refuse .notInitialised)
  else .next ({ s with poll := .unwritten, rx := .unwritten }.enter .inPoll .p1)

/-- TRANSMIT, line T0 (R134): admitted in RawActive while the engine is idle or inside the callout; LEN is latched. -/
def execTransmit (s : State) : Answer :=
  if ¬(s.act = .idle ∨ s.act = .inDispatch) then .next (s.refuse .reentered)
  else if s.mode ≠ .rawActive then .next (s.refuse .notInitialised)
  else
    withWritten s.len s fun n =>
      .next ({ s with tx := { TxBank.unwritten with tlen := some n } }.enter
        (if s.act = Act.idle then Act.inTransmit else Act.inNestedTransmit) .t1)

/-- A reserved request code (R87): refused, whatever the code. -/
def execReservedRequest (_code : Byte) (s : State) : Answer := .next (s.refuse .reservedRequest)

end Sys2Proof.Machine
end

