-- ==== Sys2Proof/Machine/Dispatch.lean ====
section
/-! DEFINITION. exec: one arm for each constructor of Instr, each a direct call of its meaning. -/

namespace Sys2Proof.Machine

def exec (i : Instr) (s : State) : Host.Outcome State Fault Refusal :=
  match i with
  | .read8 addr => Sys2Proof.Machine.execRead8 addr s
  | .write8 addr data => Sys2Proof.Machine.execWrite8 addr data s
  | .read16 addr => Sys2Proof.Machine.execRead16 addr s
  | .write16 addr value => Sys2Proof.Machine.execWrite16 addr value s
  | .mrReset => Sys2Proof.Machine.execMrReset s
  | .imrClear => Sys2Proof.Machine.execImrClear s
  | .setMacraw => Sys2Proof.Machine.execSetMacraw s
  | .cmdOpen => Sys2Proof.Machine.execCmdOpen s
  | .cmdClose => Sys2Proof.Machine.execCmdClose s
  | .cmdRecv => Sys2Proof.Machine.execCmdRecv s
  | .cmdSend => Sys2Proof.Machine.execCmdSend s
  | .ackSendOk => Sys2Proof.Machine.execAckSendOk s
  | .ackRecv => Sys2Proof.Machine.execAckRecv s
  | .ackIr v => Sys2Proof.Machine.execAckIr v s
  | .readSr => Sys2Proof.Machine.execReadSr s
  | .readIr => Sys2Proof.Machine.execReadIr s
  | .readS0Ir => Sys2Proof.Machine.execReadS0Ir s
  | .init => Sys2Proof.Machine.execInit s
  | .pollOnce => Sys2Proof.Machine.execPollOnce s
  | .transmit => Sys2Proof.Machine.execTransmit s
  | .reservedRequest code => Sys2Proof.Machine.execReservedRequest code s
  | .receiveDrain => Sys2Proof.Machine.execReceiveDrain s
  | .copyIn => Sys2Proof.Machine.execCopyIn s
  | .copyOut => Sys2Proof.Machine.execCopyOut s
  | .dispatch => Sys2Proof.Machine.execDispatch s

end Sys2Proof.Machine
end

