-- ==== Sys2Proof/Machine/Engine.lean ====
section
/-! DEFINITION. The next move of a machine that is neither reset nor marked, at most one bus frame (10_state.md R15): a request presented at once (60_exceptions.md R154), the rest of the operation under way, the issued operation, or the next agent's move. -/

namespace Sys2Proof.Machine

/-- The rest of an operation of several bus frames goes on (R94, R95, R100, R101). -/
def resume : Pending → State → Answer
  | .read16Low lowAddr hi, s => resumeRead16 lowAddr hi s
  | .write16Low lowAddr lo, s => resumeWrite16 lowAddr lo s
  | .copyIn, s => copyInTurn s
  | .copyOut, s => copyOutTurn s

/-- The next move. A request presented at once is admitted or refused before anything else of the engine's goes on, and
what was under way stays as it is (R154). -/
def nextMove (s : State) : Answer :=
  match s.presentedNow with
  | some code => exec (decodeRequest code) { s with host := s.host.tail }
  | none =>
    match s.pending with
    | some r => resume r { s.passTime with pending := none }
    | none =>
      match s.op with
      | some i => exec i { s.passTime with op := none }
      | none => advance s

end Sys2Proof.Machine
end

