-- ==== Sys2Proof/Machine/Step.lean ====
section
/-! DEFINITION. The step: the reset input first (70_reset_and_hazards.md R171), then the sticky marks (10_state.md R28), then the next move; and where the host's probe places an operation. -/

namespace Sys2Proof.Machine

/-- One step of the machine: one bus transaction or internal computation (R15). -/
def step (s : State) : Host.Outcome State Fault Refusal :=
  if s.resetAsserted then .next s.takeReset
  else
    match s.fault with
    | some r => .fault (.raised r)
    | none =>
      match s.refused with
      | some r => .refused (.requestRefused r)
      | none => nextMove s

/-- The state with the operation that a table row's word stands for as the issued one, no other under way: the operation
the next step runs (log 7). A word the decoder refuses changes nothing. -/
def State.withFetchWord (s : State) (nbits w : Nat) : State :=
  match decodeTableWord nbits w with
  | some i => { s.issue i with pending := none }
  | none => s

end Sys2Proof.Machine
end

