-- ==== Sys2Proof/Safety.lean ====
section
/-! DEFINITION. The terms claims are stated in: when the engine runs, the shape of its control state, which registers a line needs, the bus traffic the spec allows, and the byte-level traffic a history stands for. -/

namespace Sys2Proof.Machine

/-- `k` steps of the machine, stopping at the first fault or refusal. -/
def run : Nat → State → Answer
  | 0, s => .next s
  | k + 1, s =>
    match step s with
    | .next t => run k t
    | .fault r => .fault r
    | .refused r => .refused r

/-- From `s` the machine comes to `t` in some number of steps; how many steps a line takes around its bus frames is the
model's own choice (log 6). -/
def State.reaches (s t : State) : Prop := ∃ k, run k s = .next t

/-- The engine takes a step of its own: no mark is set and the reset input is not asserted (R28, R171). -/
def State.running (s : State) : Bool := s.fault.isNone && s.refused.isNone && !s.resetAsserted

/-- The host's coming moves leave the request in progress alone: after any pauses, the first one waits until the engine
is idle (R148, R188). -/
def hostWaits : List HostMove → Bool
  | [] => true
  | .pause :: ms => hostWaits ms
  | .request _ :: _ => true
  | .writeFb _ _ :: _ => true
  | .writeLen _ :: _ => true
  | .requestNow _ :: _ => false
  | .reset :: _ => false

/-- Running, and neither the reset input nor a request at once comes before the request in progress ends. -/
def State.undisturbed (s : State) : Bool := s.fault.isNone && s.refused.isNone && hostWaits s.host

/-- About to run an operation: undisturbed, that operation issued and no other under way. -/
def State.runsNext (i : Instr) (s : State) : Bool := s.undisturbed && s.op == some i && s.pending.isNone

/-- At rest at a label: undisturbed, at that label, with no operation issued, under way or answered. -/
def State.restsAt (l : Label) (s : State) : Bool :=
  s.undisturbed && s.pc.head? == some l && s.op.isNone && s.pending.isNone && s.opResult == .empty

/-- The engine is between two steps of its own with nothing issued or under way: undisturbed and free for an operation. -/
def State.free (s : State) : Bool := s.undisturbed && s.op.isNone && s.pending.isNone

/-- Everything but the bus port, the device, the history and the answer to the issuing line is as before: the frame
of one bus frame. -/
def onlyBus (s t : State) : Prop :=
  t = { s with bus := t.bus, device := t.device, h := t.h, opResult := t.opResult }

/-! The shape of the control state (R23, R30). -/

/-- The labels of INIT. -/
def Label.ofInit (l : Label) : Bool := [Label.i1, .i2, .i3, .i4, .i5, .i6, .i7, .i8].contains l

/-- The labels of POLL_ONCE and of RECEIVE_DRAIN, which runs at POLL_ONCE's level. -/
def Label.ofPoll (l : Label) : Bool :=
  [Label.p1, .p2, .p3, .p4, .p5, .d1, .d2, .d3, .d4, .d5, .d6, .d7, .d8, .d9].contains l

/-- The labels of TRANSMIT. -/
def Label.ofTransmit (l : Label) : Bool := [Label.t1, .t2, .t3, .t4, .t5, .t6, .t7].contains l

/-- The stacks of R23, each with the request level it stands for (R30). -/
def stackFits : Act → List Label → Bool
  | .idle, [] => true
  | .inInit, [l] => l.ofInit
  | .inPoll, [l] => l.ofPoll
  | .inDispatch, [.dispatch, .d8] => true
  | .inNestedTransmit, [l, .dispatch, .d8] => l.ofTransmit
  | .inTransmit, [l] => l.ofTransmit
  | _, _ => false

/-- The operation a line issues (R107, R115, R125, R134). -/
def Label.issues (rm : RegMap) : Label → Instr → Bool
  | .i1, i => i == .mrReset
  | .i2, i => i == .imrClear
  | .i3, _ => false
  | .i4, i => i == .setMacraw
  | .i5, i => i == .cmdOpen
  | .i6, i => i == .readSr
  | .i7, _ => false
  | .i8, i => i == .cmdClose
  | .p1, i => i == .readIr
  | .p2, i => i == .readS0Ir
  | .p3, i => i == .ackSendOk
  | .p4, i => i == .receiveDrain
  | .p5, .ackIr _ => true
  | .p5, _ => false
  | .d1, i => i == .read16 (s0RxRsr rm)
  | .d2, i => i == .read16 (s0RxRd rm)
  | .d3, _ => false
  | .d4, i => i == .copyIn
  | .d5, .write16 a _ => a == s0RxRd rm
  | .d5, _ => false
  | .d6, i => i == .cmdRecv
  | .d7, i => i == .ackRecv
  | .d8, i => i == .dispatch
  | .d9, i => i == .ackRecv
  | .dispatch, _ => false
  | .t1, _ => false
  | .t2, _ => false
  | .t3, i => i == .read16 (s0TxFsr rm)
  | .t4, i => i == .read16 (s0TxWr rm)
  | .t5, i => i == .copyOut
  | .t6, .write16 a _ => a == s0TxWr rm
  | .t6, _ => false
  | .t7, i => i == .cmdSend

/-- The issued operation is a request on a port, or the one the line at the top label issues. -/
def opFits (s : State) : Bool :=
  match s.op with
  | none => true
  | some i => i.port == .host || (s.pc.head?.map (fun l => l.issues s.cfg.regmap i)).getD false

/-- The second frame of a READ16 at `a` is still to come. -/
def Pending.readsLowOf (a : Word) : Pending → Bool
  | .read16Low lowAddr _ => lowAddr == nextAddr a
  | .write16Low _ _ => false
  | .copyIn => false
  | .copyOut => false

/-- The second frame of a WRITE16 at `a` is still to come. -/
def Pending.writesLowOf (a : Word) : Pending → Bool
  | .read16Low _ _ => false
  | .write16Low lowAddr _ => lowAddr == nextAddr a
  | .copyIn => false
  | .copyOut => false

/-- The operation of several frames that a line has under way (R125, R134). -/
def Label.pends (rm : RegMap) : Label → Pending → Bool
  | .i1, _ => false
  | .i2, _ => false
  | .i3, _ => false
  | .i4, _ => false
  | .i5, _ => false
  | .i6, _ => false
  | .i7, _ => false
  | .i8, _ => false
  | .p1, _ => false
  | .p2, _ => false
  | .p3, _ => false
  | .p4, _ => false
  | .p5, _ => false
  | .d1, r => r.readsLowOf (s0RxRsr rm)
  | .d2, r => r.readsLowOf (s0RxRd rm)
  | .d3, _ => false
  | .d4, r => r == .copyIn
  | .d5, r => r.writesLowOf (s0RxRd rm)
  | .d6, _ => false
  | .d7, _ => false
  | .d8, _ => false
  | .d9, _ => false
  | .dispatch, _ => false
  | .t1, _ => false
  | .t2, _ => false
  | .t3, r => r.readsLowOf (s0TxFsr rm)
  | .t4, r => r.readsLowOf (s0TxWr rm)
  | .t5, r => r == .copyOut
  | .t6, r => r.writesLowOf (s0TxWr rm)
  | .t7, _ => false

/-- The operation under way is the one the line at the top label has, and no other is issued (R66). -/
def pendingFits (s : State) : Bool :=
  match s.pending with
  | none => true
  | some r => s.op.isNone && (s.pc.head?.map (fun l => l.pends s.cfg.regmap r)).getD false

/-- The mode a label runs in (R113): INIT's first two lines before RawActive, the rest of INIT in ModeNegotiation,
every line of another request in RawActive. -/
def modeFits (m : Mode) (l : Label) : Bool :=
  if l == .i1 || l == .i2 then m != .rawActive
  else if l.ofInit then m == .modeNegotiation
  else m == .rawActive

/-- The control state's shape: stack and level agree, the operation issued or under way is one that can be, and the mode
fits. -/
def State.controlFits (s : State) : Bool :=
  stackFits s.act s.pc && opFits s && pendingFits s && s.pc.all (modeFits s.mode)

/-- FB[0..n-1] is written (R26). -/
def State.fbWritten (s : State) (n : Nat) : Bool := (List.range n).all (fun i => (s.readFb i).isSome)

/-- A frame that is not dropped is in FB[0..size-1] (R125, R129). -/
def State.frameWritten (s : State) : Bool :=
  s.rx.drop != some false || s.rx.size.all (fun n => s.fbWritten n.toNat)

/-- The working registers the line at a label reads are written (R24). -/
def Label.reads (s : State) : Label → Bool
  | .i3 => s.initBank.nneg.isSome
  | .i7 => s.initBank.st.isSome
  | .p2 | .p5 => s.poll.ir.isSome
  | .p3 | .p4 => s.poll.sir.isSome
  | .d3 => s.rx.size.isSome
  | .d4 => s.rx.drop.isSome
  | .d5 => s.rx.rd0.isSome && s.rx.size.isSome
  | .d8 => s.rx.drop.isSome && s.rx.size.isSome
  | .t1 => s.tx.tlen.isSome
  | .t3 => s.tx.nfsr.isSome && s.tx.tlen.isSome
  | .t6 => s.tx.wr0.isSome && s.tx.tlen.isSome
  | .i1 | .i2 | .i4 | .i5 | .i6 | .i8 | .p1 | .d1 | .d2 | .d6 | .d7 | .d9 | .dispatch | .t2 | .t4 | .t5 | .t7 => true

/-- What RECEIVE_DRAIN has written from D4 on (R126, R128, R129). -/
def State.drainNeeds (s : State) : Bool :=
  s.poll.ir.isSome && s.rx.size.isSome && s.rx.rd0.isSome && s.rx.rcur.isSome &&
    s.rx.drop == s.rx.size.map (rxOversized s.cfg)

/-- The working registers a label's line or a later line of its request reads before writing them (R24), and from the
end of D4's copy to D8 the frame itself in FB. -/
def Label.needs (s : State) : Label → Bool
  | .i1 | .i2 => true
  | .i3 | .i4 | .i5 | .i6 | .i8 => s.initBank.nneg.isSome
  | .i7 => s.initBank.nneg.isSome && s.initBank.st.isSome
  | .p1 => true
  | .p2 | .p5 | .d1 => s.poll.ir.isSome
  | .p3 | .p4 => s.poll.ir.isSome && s.poll.sir.isSome
  | .d2 => s.poll.ir.isSome && s.rx.size.isSome
  | .d3 => s.poll.ir.isSome && s.rx.size.isSome && s.rx.rd0.isSome && s.rx.rcur.isSome
  | .d4 => s.drainNeeds && (s.opResult == .empty || s.frameWritten)
  | .d5 | .d6 | .d7 | .d8 => s.drainNeeds && s.frameWritten
  | .d9 => s.drainNeeds
  | .dispatch => true
  | .t1 | .t2 | .t4 => s.tx.tlen.isSome
  | .t3 => s.tx.tlen.isSome && s.tx.nfsr.isSome
  | .t5 | .t6 => s.tx.tlen.isSome && s.tx.wr0.isSome
  | .t7 => true

/-- A copy under way has its cursor and count written, the cursor inside its window (R103); a COPY_IN is one of a frame
that fits, whose bytes so far are in FB (R100). -/
def State.copyFits (s : State) : Bool :=
  match s.pending with
  | some .copyIn =>
    s.rx.drop == some false && s.rx.rpa.any (fun pa => !s.cfg.valid || inWindow s.cfg.rxBase s.cfg.rxMask pa) &&
      s.rx.ri.any (fun i => s.fbWritten i.toNat)
  | some .copyOut =>
    s.tx.tpa.any (fun pa => !s.cfg.valid || inWindow s.cfg.txBase s.cfg.txMask pa) && s.tx.ti.isSome
  | some (.read16Low _ _) => true
  | some (.write16Low _ _) => true
  | none => true

/-- The invariant of the control state: its shape, every register written that a label of the stack needs, a copy into
the frame buffer only issued for a frame that fits (R100, R129), a callout only issued for it too, with LEN set to its
size (R132), and a copy under way as `copyFits` says. -/
def State.controlled (s : State) : Bool :=
  s.controlFits && s.pc.all (Label.needs s) && (s.op != some .copyIn || s.rx.drop == some false) &&
    (s.op != some .dispatch || (s.rx.drop == some false && s.len == s.rx.size)) && s.copyFits

/-! The memories. -/

/-- Both memories are in canonical form, the frame buffer inside FB[0..CAP-1] and the device inside its 16-bit space. -/
def State.memoryFits (s : State) : Bool :=
  Memory.wf fbUnlisted s.fb && s.fb.all (fun c => decide (c.1 < s.cfg.cap.toNat)) &&
    Memory.wf (deviceResetByte s.cfg) s.device.space && s.device.space.all (fun c => decide (c.1 < 65536))

/-! The bus traffic. -/

/-- The addresses the engine reads (R56). -/
def readAllowed (c : Config) (a : Word) : Bool :=
  [c.regmap.aIr, s0Ir c.regmap, s0Sr c.regmap, s0TxFsr c.regmap, nextAddr (s0TxFsr c.regmap), s0TxWr c.regmap,
    nextAddr (s0TxWr c.regmap), s0RxRsr c.regmap, nextAddr (s0RxRsr c.regmap), s0RxRd c.regmap,
    nextAddr (s0RxRd c.regmap)].contains a || inWindow c.rxBase c.rxMask a

/-- The addresses the engine writes (R56), and where R88 fixes the value the value: the fixed-value writes of R78, any
byte to A_IR, to the two pointers and to the TX window. -/
def writeAllowed (c : Config) (a : Word) (d : Byte) : Bool :=
  (namedWrites c.regmap).contains (a, d) ||
    [c.regmap.aIr, s0TxWr c.regmap, nextAddr (s0TxWr c.regmap), s0RxRd c.regmap, nextAddr (s0RxRd c.regmap)].contains a ||
    inWindow c.txBase c.txMask a

/-- An event the engine may issue (R56, R88). -/
def eventAllowed (c : Config) : Event → Bool
  | .r8 a _ => readAllowed c a
  | .w8 a d => writeAllowed c a d
  | .dispatch _ _ => true
  | .ret _ => true

/-- A bracketed frame on the bus port, byte for byte (R71, R75). -/
def frameActs (bs : List Byte) : List BusAct := .acquire :: bs.map BusAct.xchg ++ [.release]

/-- The bus port's acts that an event stands for (R72, R73, R75): one bracketed frame, or none. -/
def Event.acts (c : Config) : Event → List BusAct
  | .r8 a _ => frameActs (readFrame c a)
  | .w8 a d => frameActs (writeFrame c a d)
  | .dispatch _ _ => []
  | .ret _ => []

/-- The bus port's record is the history's frames and nothing else, and the bus is released (R20, R66, R75, R86). -/
def State.wireFits (s : State) : Prop :=
  s.bus.held = false ∧ s.bus.wire = s.h.flatMap (Event.acts s.cfg)

/-! What the device answers to coming frames (R51, R69). -/

/-- The bytes the device answers to consecutive read frames at these addresses. -/
def Device.answers (c : Config) : List Word → Device → List Byte
  | [], _ => []
  | a :: as, dev => (dev.read c a).1 :: Device.answers c as (dev.read c a).2

/-- The word the device's two answers to a READ16 at `a` make (R94). -/
def Device.wordAnswer (c : Config) (a : Word) (dev : Device) : Word :=
  concatBytes (dev.read c a).1 ((dev.read c a).2.read c (nextAddr a)).1

/-- The two bytes the device answers to each of `k` consecutive READ16 at `a`, high byte first. -/
def Device.polls (c : Config) (a : Word) : Nat → Device → List (Byte × Byte)
  | 0, _ => []
  | k + 1, dev =>
    ((dev.read c a).1, ((dev.read c a).2.read c (nextAddr a)).1) ::
      Device.polls c a k ((dev.read c a).2.read c (nextAddr a)).2

/-- The device after the bus frames of a list of events. -/
def Device.afterFrames (c : Config) : List Event → Device → Device
  | [], dev => dev
  | .r8 a _ :: es, dev => Device.afterFrames c es (dev.read c a).2
  | .w8 a d :: es, dev => Device.afterFrames c es (dev.write c a d)
  | .dispatch _ _ :: es, dev => Device.afterFrames c es dev
  | .ret _ :: es, dev => Device.afterFrames c es dev

/-! Ring traffic of a copy. -/

/-- The address of byte `i` of a transfer from logical pointer `p` (R97, R99). -/
def ringAddr (base mask p : Word) (i : Nat) : Word :=
  BitVec.ofNat 16 (base.toNat + ((p &&& mask).toNat + i) % (mask.toNat + 1))

/-- The addresses of the `n` bytes of a transfer from logical pointer `p`, in order. -/
def ringAddrs (base mask p : Word) (n : Nat) : List Word := (List.range n).map (ringAddr base mask p)

/-- The read frames of a copy of `bs` from the ring at logical pointer `p`, byte `j` on being the first of `bs`. -/
def ringReads (base mask p : Word) : Nat → List Byte → List Event
  | _, [] => []
  | j, b :: bs => .r8 (ringAddr base mask p j) b :: ringReads base mask p (j + 1) bs

/-- The write frames of a copy of `bs` to the ring at logical pointer `p`, byte `j` on being the first of `bs`. -/
def ringWrites (base mask p : Word) : Nat → List Byte → List Event
  | _, [] => []
  | j, b :: bs => .w8 (ringAddr base mask p j) b :: ringWrites base mask p (j + 1) bs

/-- The frame buffer holds `bs` from index 0 on. -/
def State.fbHolds (s : State) (bs : List Byte) : Prop := ∀ i, i < bs.length → s.readFb i = bs[i]?

/-- The two read frames of a READ16 at `a` that answered `hi` and `lo` (R76). -/
def read16Events (a : Word) (hi lo : Byte) : List Event := [.r8 a hi, .r8 (nextAddr a) lo]

/-- The two write frames of a WRITE16 of `v` at `a` (R77). -/
def write16Events (a v : Word) : List Event := [.w8 a (hiByte v), .w8 (nextAddr a) (loByte v)]

/-- The frames of failed negotiation iterations, one for each status read (R109, R111). -/
def failedIterations (rm : RegMap) : List Byte → List Event
  | [] => []
  | st :: sts =>
    [.w8 (s0Mr rm) rm.smrMacraw, .w8 (s0Cr rm) rm.cmdOpen, .r8 (s0Sr rm) st, .w8 (s0Cr rm) rm.cmdClose] ++
      failedIterations rm sts

/-- The frames of a negotiation: the two of R108, the failed iterations, and the successful one (R107). -/
def negotiation (rm : RegMap) (sts : List Byte) : List Event :=
  [.w8 rm.aMr rm.mrRst, .w8 rm.aImr 0x00] ++ failedIterations rm sts ++
    [.w8 (s0Mr rm) rm.smrMacraw, .w8 (s0Cr rm) rm.cmdOpen, .r8 (s0Sr rm) rm.ssrMacraw]

/-- A device turn that answers `b` and changes nothing. -/
def answerTurn (b : Byte) : DeviceTurn := ⟨[], some b⟩

/-- The device's coming turns, from the first iteration of a negotiation on, answer its status reads with `sts`, then
with the raw-frame code: the third turn of each iteration, whatever else the device does (R109, R111). -/
def statusAnswers (rm : RegMap) : List Byte → List DeviceTurn → Bool
  | [], _ :: _ :: t :: _ => t.answer == some rm.ssrMacraw
  | st :: sts, _ :: _ :: t :: _ :: ts => t.answer == some st && statusAnswers rm sts ts
  | _, _ => false

end Sys2Proof.Machine
end

