-- ==== Sys2Proof/Laws/State.lean ====
section
/-! SUPPORT. What each named update of the state leaves and what it sets, one lemma a field, so that no proof unfolds a record update. -/

namespace Sys2Proof.Machine

/-! emit appends to the history alone (R29). -/

@[simp] theorem State.emit_cfg (e : Event) (s : State) : (s.emit e).cfg = s.cfg := rfl
@[simp] theorem State.emit_pc (e : Event) (s : State) : (s.emit e).pc = s.pc := rfl
@[simp] theorem State.emit_op (e : Event) (s : State) : (s.emit e).op = s.op := rfl
@[simp] theorem State.emit_pending (e : Event) (s : State) : (s.emit e).pending = s.pending := rfl
@[simp] theorem State.emit_opResult (e : Event) (s : State) : (s.emit e).opResult = s.opResult := rfl
@[simp] theorem State.emit_initBank (e : Event) (s : State) : (s.emit e).initBank = s.initBank := rfl
@[simp] theorem State.emit_poll (e : Event) (s : State) : (s.emit e).poll = s.poll := rfl
@[simp] theorem State.emit_rx (e : Event) (s : State) : (s.emit e).rx = s.rx := rfl
@[simp] theorem State.emit_tx (e : Event) (s : State) : (s.emit e).tx = s.tx := rfl
@[simp] theorem State.emit_mode (e : Event) (s : State) : (s.emit e).mode = s.mode := rfl
@[simp] theorem State.emit_act (e : Event) (s : State) : (s.emit e).act = s.act := rfl
@[simp] theorem State.emit_fb (e : Event) (s : State) : (s.emit e).fb = s.fb := rfl
@[simp] theorem State.emit_len (e : Event) (s : State) : (s.emit e).len = s.len := rfl
@[simp] theorem State.emit_fault (e : Event) (s : State) : (s.emit e).fault = s.fault := rfl
@[simp] theorem State.emit_refused (e : Event) (s : State) : (s.emit e).refused = s.refused := rfl
@[simp] theorem State.emit_h (e : Event) (s : State) : (s.emit e).h = s.h ++ [e] := rfl
@[simp] theorem State.emit_bus (e : Event) (s : State) : (s.emit e).bus = s.bus := rfl
@[simp] theorem State.emit_hostResult (e : Event) (s : State) : (s.emit e).hostResult = s.hostResult := rfl
@[simp] theorem State.emit_dispatchResult (e : Event) (s : State) : (s.emit e).dispatchResult = s.dispatchResult := rfl
@[simp] theorem State.emit_device (e : Event) (s : State) : (s.emit e).device = s.device := rfl
@[simp] theorem State.emit_host (e : Event) (s : State) : (s.emit e).host = s.host := rfl
@[simp] theorem State.emit_dispatch (e : Event) (s : State) : (s.emit e).dispatch = s.dispatch := rfl

/-! raise sets the fault mark alone (R153). -/

@[simp] theorem State.raise_cfg (r : FaultReason) (s : State) : (s.raise r).cfg = s.cfg := rfl
@[simp] theorem State.raise_pc (r : FaultReason) (s : State) : (s.raise r).pc = s.pc := rfl
@[simp] theorem State.raise_op (r : FaultReason) (s : State) : (s.raise r).op = s.op := rfl
@[simp] theorem State.raise_pending (r : FaultReason) (s : State) : (s.raise r).pending = s.pending := rfl
@[simp] theorem State.raise_opResult (r : FaultReason) (s : State) : (s.raise r).opResult = s.opResult := rfl
@[simp] theorem State.raise_initBank (r : FaultReason) (s : State) : (s.raise r).initBank = s.initBank := rfl
@[simp] theorem State.raise_poll (r : FaultReason) (s : State) : (s.raise r).poll = s.poll := rfl
@[simp] theorem State.raise_rx (r : FaultReason) (s : State) : (s.raise r).rx = s.rx := rfl
@[simp] theorem State.raise_tx (r : FaultReason) (s : State) : (s.raise r).tx = s.tx := rfl
@[simp] theorem State.raise_mode (r : FaultReason) (s : State) : (s.raise r).mode = s.mode := rfl
@[simp] theorem State.raise_act (r : FaultReason) (s : State) : (s.raise r).act = s.act := rfl
@[simp] theorem State.raise_fb (r : FaultReason) (s : State) : (s.raise r).fb = s.fb := rfl
@[simp] theorem State.raise_len (r : FaultReason) (s : State) : (s.raise r).len = s.len := rfl
@[simp] theorem State.raise_fault (r : FaultReason) (s : State) : (s.raise r).fault = some r := rfl
@[simp] theorem State.raise_refused (r : FaultReason) (s : State) : (s.raise r).refused = s.refused := rfl
@[simp] theorem State.raise_h (r : FaultReason) (s : State) : (s.raise r).h = s.h := rfl
@[simp] theorem State.raise_bus (r : FaultReason) (s : State) : (s.raise r).bus = s.bus := rfl
@[simp] theorem State.raise_hostResult (r : FaultReason) (s : State) : (s.raise r).hostResult = s.hostResult := rfl
@[simp] theorem State.raise_dispatchResult (r : FaultReason) (s : State) : (s.raise r).dispatchResult = s.dispatchResult := rfl
@[simp] theorem State.raise_device (r : FaultReason) (s : State) : (s.raise r).device = s.device := rfl
@[simp] theorem State.raise_host (r : FaultReason) (s : State) : (s.raise r).host = s.host := rfl
@[simp] theorem State.raise_dispatch (r : FaultReason) (s : State) : (s.raise r).dispatch = s.dispatch := rfl

/-! refuse sets the refusal mark alone (R154). -/

@[simp] theorem State.refuse_cfg (r : RefusalReason) (s : State) : (s.refuse r).cfg = s.cfg := rfl
@[simp] theorem State.refuse_pc (r : RefusalReason) (s : State) : (s.refuse r).pc = s.pc := rfl
@[simp] theorem State.refuse_op (r : RefusalReason) (s : State) : (s.refuse r).op = s.op := rfl
@[simp] theorem State.refuse_pending (r : RefusalReason) (s : State) : (s.refuse r).pending = s.pending := rfl
@[simp] theorem State.refuse_opResult (r : RefusalReason) (s : State) : (s.refuse r).opResult = s.opResult := rfl
@[simp] theorem State.refuse_initBank (r : RefusalReason) (s : State) : (s.refuse r).initBank = s.initBank := rfl
@[simp] theorem State.refuse_poll (r : RefusalReason) (s : State) : (s.refuse r).poll = s.poll := rfl
@[simp] theorem State.refuse_rx (r : RefusalReason) (s : State) : (s.refuse r).rx = s.rx := rfl
@[simp] theorem State.refuse_tx (r : RefusalReason) (s : State) : (s.refuse r).tx = s.tx := rfl
@[simp] theorem State.refuse_mode (r : RefusalReason) (s : State) : (s.refuse r).mode = s.mode := rfl
@[simp] theorem State.refuse_act (r : RefusalReason) (s : State) : (s.refuse r).act = s.act := rfl
@[simp] theorem State.refuse_fb (r : RefusalReason) (s : State) : (s.refuse r).fb = s.fb := rfl
@[simp] theorem State.refuse_len (r : RefusalReason) (s : State) : (s.refuse r).len = s.len := rfl
@[simp] theorem State.refuse_fault (r : RefusalReason) (s : State) : (s.refuse r).fault = s.fault := rfl
@[simp] theorem State.refuse_refused (r : RefusalReason) (s : State) : (s.refuse r).refused = some r := rfl
@[simp] theorem State.refuse_h (r : RefusalReason) (s : State) : (s.refuse r).h = s.h := rfl
@[simp] theorem State.refuse_bus (r : RefusalReason) (s : State) : (s.refuse r).bus = s.bus := rfl
@[simp] theorem State.refuse_hostResult (r : RefusalReason) (s : State) : (s.refuse r).hostResult = s.hostResult := rfl
@[simp] theorem State.refuse_dispatchResult (r : RefusalReason) (s : State) : (s.refuse r).dispatchResult = s.dispatchResult := rfl
@[simp] theorem State.refuse_device (r : RefusalReason) (s : State) : (s.refuse r).device = s.device := rfl
@[simp] theorem State.refuse_host (r : RefusalReason) (s : State) : (s.refuse r).host = s.host := rfl
@[simp] theorem State.refuse_dispatch (r : RefusalReason) (s : State) : (s.refuse r).dispatch = s.dispatch := rfl

/-! writeFb writes the frame buffer alone (R26). -/

@[simp] theorem State.writeFb_cfg (i : Word) (b : Byte) (s : State) : (s.writeFb i b).cfg = s.cfg := rfl
@[simp] theorem State.writeFb_pc (i : Word) (b : Byte) (s : State) : (s.writeFb i b).pc = s.pc := rfl
@[simp] theorem State.writeFb_op (i : Word) (b : Byte) (s : State) : (s.writeFb i b).op = s.op := rfl
@[simp] theorem State.writeFb_pending (i : Word) (b : Byte) (s : State) : (s.writeFb i b).pending = s.pending := rfl
@[simp] theorem State.writeFb_opResult (i : Word) (b : Byte) (s : State) : (s.writeFb i b).opResult = s.opResult := rfl
@[simp] theorem State.writeFb_initBank (i : Word) (b : Byte) (s : State) : (s.writeFb i b).initBank = s.initBank := rfl
@[simp] theorem State.writeFb_poll (i : Word) (b : Byte) (s : State) : (s.writeFb i b).poll = s.poll := rfl
@[simp] theorem State.writeFb_rx (i : Word) (b : Byte) (s : State) : (s.writeFb i b).rx = s.rx := rfl
@[simp] theorem State.writeFb_tx (i : Word) (b : Byte) (s : State) : (s.writeFb i b).tx = s.tx := rfl
@[simp] theorem State.writeFb_mode (i : Word) (b : Byte) (s : State) : (s.writeFb i b).mode = s.mode := rfl
@[simp] theorem State.writeFb_act (i : Word) (b : Byte) (s : State) : (s.writeFb i b).act = s.act := rfl
@[simp] theorem State.writeFb_fb (i : Word) (b : Byte) (s : State) : (s.writeFb i b).fb = Memory.write fbUnlisted s.fb i.toNat b := rfl
@[simp] theorem State.writeFb_len (i : Word) (b : Byte) (s : State) : (s.writeFb i b).len = s.len := rfl
@[simp] theorem State.writeFb_fault (i : Word) (b : Byte) (s : State) : (s.writeFb i b).fault = s.fault := rfl
@[simp] theorem State.writeFb_refused (i : Word) (b : Byte) (s : State) : (s.writeFb i b).refused = s.refused := rfl
@[simp] theorem State.writeFb_h (i : Word) (b : Byte) (s : State) : (s.writeFb i b).h = s.h := rfl
@[simp] theorem State.writeFb_bus (i : Word) (b : Byte) (s : State) : (s.writeFb i b).bus = s.bus := rfl
@[simp] theorem State.writeFb_hostResult (i : Word) (b : Byte) (s : State) : (s.writeFb i b).hostResult = s.hostResult := rfl
@[simp] theorem State.writeFb_dispatchResult (i : Word) (b : Byte) (s : State) : (s.writeFb i b).dispatchResult = s.dispatchResult := rfl
@[simp] theorem State.writeFb_device (i : Word) (b : Byte) (s : State) : (s.writeFb i b).device = s.device := rfl
@[simp] theorem State.writeFb_host (i : Word) (b : Byte) (s : State) : (s.writeFb i b).host = s.host := rfl
@[simp] theorem State.writeFb_dispatch (i : Word) (b : Byte) (s : State) : (s.writeFb i b).dispatch = s.dispatch := rfl

/-! goto moves the sequencer alone (R23). -/

@[simp] theorem State.goto_cfg (l : Label) (s : State) : (s.goto l).cfg = s.cfg := rfl
@[simp] theorem State.goto_pc (l : Label) (s : State) : (s.goto l).pc = l :: s.pc.tail := rfl
@[simp] theorem State.goto_op (l : Label) (s : State) : (s.goto l).op = s.op := rfl
@[simp] theorem State.goto_pending (l : Label) (s : State) : (s.goto l).pending = s.pending := rfl
@[simp] theorem State.goto_opResult (l : Label) (s : State) : (s.goto l).opResult = .empty := rfl
@[simp] theorem State.goto_initBank (l : Label) (s : State) : (s.goto l).initBank = s.initBank := rfl
@[simp] theorem State.goto_poll (l : Label) (s : State) : (s.goto l).poll = s.poll := rfl
@[simp] theorem State.goto_rx (l : Label) (s : State) : (s.goto l).rx = s.rx := rfl
@[simp] theorem State.goto_tx (l : Label) (s : State) : (s.goto l).tx = s.tx := rfl
@[simp] theorem State.goto_mode (l : Label) (s : State) : (s.goto l).mode = s.mode := rfl
@[simp] theorem State.goto_act (l : Label) (s : State) : (s.goto l).act = s.act := rfl
@[simp] theorem State.goto_fb (l : Label) (s : State) : (s.goto l).fb = s.fb := rfl
@[simp] theorem State.goto_len (l : Label) (s : State) : (s.goto l).len = s.len := rfl
@[simp] theorem State.goto_fault (l : Label) (s : State) : (s.goto l).fault = s.fault := rfl
@[simp] theorem State.goto_refused (l : Label) (s : State) : (s.goto l).refused = s.refused := rfl
@[simp] theorem State.goto_h (l : Label) (s : State) : (s.goto l).h = s.h := rfl
@[simp] theorem State.goto_bus (l : Label) (s : State) : (s.goto l).bus = s.bus := rfl
@[simp] theorem State.goto_hostResult (l : Label) (s : State) : (s.goto l).hostResult = s.hostResult := rfl
@[simp] theorem State.goto_dispatchResult (l : Label) (s : State) : (s.goto l).dispatchResult = s.dispatchResult := rfl
@[simp] theorem State.goto_device (l : Label) (s : State) : (s.goto l).device = s.device := rfl
@[simp] theorem State.goto_host (l : Label) (s : State) : (s.goto l).host = s.host := rfl
@[simp] theorem State.goto_dispatch (l : Label) (s : State) : (s.goto l).dispatch = s.dispatch := rfl

/-! issue places the operation alone. -/

@[simp] theorem State.issue_cfg (i : Instr) (s : State) : (s.issue i).cfg = s.cfg := rfl
@[simp] theorem State.issue_pc (i : Instr) (s : State) : (s.issue i).pc = s.pc := rfl
@[simp] theorem State.issue_op (i : Instr) (s : State) : (s.issue i).op = some i := rfl
@[simp] theorem State.issue_pending (i : Instr) (s : State) : (s.issue i).pending = s.pending := rfl
@[simp] theorem State.issue_opResult (i : Instr) (s : State) : (s.issue i).opResult = s.opResult := rfl
@[simp] theorem State.issue_initBank (i : Instr) (s : State) : (s.issue i).initBank = s.initBank := rfl
@[simp] theorem State.issue_poll (i : Instr) (s : State) : (s.issue i).poll = s.poll := rfl
@[simp] theorem State.issue_rx (i : Instr) (s : State) : (s.issue i).rx = s.rx := rfl
@[simp] theorem State.issue_tx (i : Instr) (s : State) : (s.issue i).tx = s.tx := rfl
@[simp] theorem State.issue_mode (i : Instr) (s : State) : (s.issue i).mode = s.mode := rfl
@[simp] theorem State.issue_act (i : Instr) (s : State) : (s.issue i).act = s.act := rfl
@[simp] theorem State.issue_fb (i : Instr) (s : State) : (s.issue i).fb = s.fb := rfl
@[simp] theorem State.issue_len (i : Instr) (s : State) : (s.issue i).len = s.len := rfl
@[simp] theorem State.issue_fault (i : Instr) (s : State) : (s.issue i).fault = s.fault := rfl
@[simp] theorem State.issue_refused (i : Instr) (s : State) : (s.issue i).refused = s.refused := rfl
@[simp] theorem State.issue_h (i : Instr) (s : State) : (s.issue i).h = s.h := rfl
@[simp] theorem State.issue_bus (i : Instr) (s : State) : (s.issue i).bus = s.bus := rfl
@[simp] theorem State.issue_hostResult (i : Instr) (s : State) : (s.issue i).hostResult = s.hostResult := rfl
@[simp] theorem State.issue_dispatchResult (i : Instr) (s : State) : (s.issue i).dispatchResult = s.dispatchResult := rfl
@[simp] theorem State.issue_device (i : Instr) (s : State) : (s.issue i).device = s.device := rfl
@[simp] theorem State.issue_host (i : Instr) (s : State) : (s.issue i).host = s.host := rfl
@[simp] theorem State.issue_dispatch (i : Instr) (s : State) : (s.issue i).dispatch = s.dispatch := rfl

/-! pend leaves the rest of the operation under way alone (R15). -/

@[simp] theorem State.pend_cfg (r : Pending) (s : State) : (s.pend r).cfg = s.cfg := rfl
@[simp] theorem State.pend_pc (r : Pending) (s : State) : (s.pend r).pc = s.pc := rfl
@[simp] theorem State.pend_op (r : Pending) (s : State) : (s.pend r).op = s.op := rfl
@[simp] theorem State.pend_pending (r : Pending) (s : State) : (s.pend r).pending = some r := rfl
@[simp] theorem State.pend_opResult (r : Pending) (s : State) : (s.pend r).opResult = s.opResult := rfl
@[simp] theorem State.pend_initBank (r : Pending) (s : State) : (s.pend r).initBank = s.initBank := rfl
@[simp] theorem State.pend_poll (r : Pending) (s : State) : (s.pend r).poll = s.poll := rfl
@[simp] theorem State.pend_rx (r : Pending) (s : State) : (s.pend r).rx = s.rx := rfl
@[simp] theorem State.pend_tx (r : Pending) (s : State) : (s.pend r).tx = s.tx := rfl
@[simp] theorem State.pend_mode (r : Pending) (s : State) : (s.pend r).mode = s.mode := rfl
@[simp] theorem State.pend_act (r : Pending) (s : State) : (s.pend r).act = s.act := rfl
@[simp] theorem State.pend_fb (r : Pending) (s : State) : (s.pend r).fb = s.fb := rfl
@[simp] theorem State.pend_len (r : Pending) (s : State) : (s.pend r).len = s.len := rfl
@[simp] theorem State.pend_fault (r : Pending) (s : State) : (s.pend r).fault = s.fault := rfl
@[simp] theorem State.pend_refused (r : Pending) (s : State) : (s.pend r).refused = s.refused := rfl
@[simp] theorem State.pend_h (r : Pending) (s : State) : (s.pend r).h = s.h := rfl
@[simp] theorem State.pend_bus (r : Pending) (s : State) : (s.pend r).bus = s.bus := rfl
@[simp] theorem State.pend_hostResult (r : Pending) (s : State) : (s.pend r).hostResult = s.hostResult := rfl
@[simp] theorem State.pend_dispatchResult (r : Pending) (s : State) : (s.pend r).dispatchResult = s.dispatchResult := rfl
@[simp] theorem State.pend_device (r : Pending) (s : State) : (s.pend r).device = s.device := rfl
@[simp] theorem State.pend_host (r : Pending) (s : State) : (s.pend r).host = s.host := rfl
@[simp] theorem State.pend_dispatch (r : Pending) (s : State) : (s.pend r).dispatch = s.dispatch := rfl

/-! passTime touches the host's moves alone. -/

@[simp] theorem State.passTime_cfg (s : State) : s.passTime.cfg = s.cfg := rfl
@[simp] theorem State.passTime_pc (s : State) : s.passTime.pc = s.pc := rfl
@[simp] theorem State.passTime_op (s : State) : s.passTime.op = s.op := rfl
@[simp] theorem State.passTime_pending (s : State) : s.passTime.pending = s.pending := rfl
@[simp] theorem State.passTime_opResult (s : State) : s.passTime.opResult = s.opResult := rfl
@[simp] theorem State.passTime_initBank (s : State) : s.passTime.initBank = s.initBank := rfl
@[simp] theorem State.passTime_poll (s : State) : s.passTime.poll = s.poll := rfl
@[simp] theorem State.passTime_rx (s : State) : s.passTime.rx = s.rx := rfl
@[simp] theorem State.passTime_tx (s : State) : s.passTime.tx = s.tx := rfl
@[simp] theorem State.passTime_mode (s : State) : s.passTime.mode = s.mode := rfl
@[simp] theorem State.passTime_act (s : State) : s.passTime.act = s.act := rfl
@[simp] theorem State.passTime_fb (s : State) : s.passTime.fb = s.fb := rfl
@[simp] theorem State.passTime_len (s : State) : s.passTime.len = s.len := rfl
@[simp] theorem State.passTime_fault (s : State) : s.passTime.fault = s.fault := rfl
@[simp] theorem State.passTime_refused (s : State) : s.passTime.refused = s.refused := rfl
@[simp] theorem State.passTime_h (s : State) : s.passTime.h = s.h := rfl
@[simp] theorem State.passTime_bus (s : State) : s.passTime.bus = s.bus := rfl
@[simp] theorem State.passTime_hostResult (s : State) : s.passTime.hostResult = s.hostResult := rfl
@[simp] theorem State.passTime_dispatchResult (s : State) : s.passTime.dispatchResult = s.dispatchResult := rfl
@[simp] theorem State.passTime_device (s : State) : s.passTime.device = s.device := rfl
@[simp] theorem State.passTime_host (s : State) : s.passTime.host = afterPause s.host := rfl
@[simp] theorem State.passTime_dispatch (s : State) : s.passTime.dispatch = s.dispatch := rfl

/-! answer sets what the operation answered alone. -/

@[simp] theorem State.answer_cfg (r : OpResult) (s : State) : (s.answer r).cfg = s.cfg := rfl
@[simp] theorem State.answer_pc (r : OpResult) (s : State) : (s.answer r).pc = s.pc := rfl
@[simp] theorem State.answer_op (r : OpResult) (s : State) : (s.answer r).op = s.op := rfl
@[simp] theorem State.answer_pending (r : OpResult) (s : State) : (s.answer r).pending = s.pending := rfl
@[simp] theorem State.answer_opResult (r : OpResult) (s : State) : (s.answer r).opResult = r := rfl
@[simp] theorem State.answer_initBank (r : OpResult) (s : State) : (s.answer r).initBank = s.initBank := rfl
@[simp] theorem State.answer_poll (r : OpResult) (s : State) : (s.answer r).poll = s.poll := rfl
@[simp] theorem State.answer_rx (r : OpResult) (s : State) : (s.answer r).rx = s.rx := rfl
@[simp] theorem State.answer_tx (r : OpResult) (s : State) : (s.answer r).tx = s.tx := rfl
@[simp] theorem State.answer_mode (r : OpResult) (s : State) : (s.answer r).mode = s.mode := rfl
@[simp] theorem State.answer_act (r : OpResult) (s : State) : (s.answer r).act = s.act := rfl
@[simp] theorem State.answer_fb (r : OpResult) (s : State) : (s.answer r).fb = s.fb := rfl
@[simp] theorem State.answer_len (r : OpResult) (s : State) : (s.answer r).len = s.len := rfl
@[simp] theorem State.answer_fault (r : OpResult) (s : State) : (s.answer r).fault = s.fault := rfl
@[simp] theorem State.answer_refused (r : OpResult) (s : State) : (s.answer r).refused = s.refused := rfl
@[simp] theorem State.answer_h (r : OpResult) (s : State) : (s.answer r).h = s.h := rfl
@[simp] theorem State.answer_bus (r : OpResult) (s : State) : (s.answer r).bus = s.bus := rfl
@[simp] theorem State.answer_hostResult (r : OpResult) (s : State) : (s.answer r).hostResult = s.hostResult := rfl
@[simp] theorem State.answer_dispatchResult (r : OpResult) (s : State) : (s.answer r).dispatchResult = s.dispatchResult := rfl
@[simp] theorem State.answer_device (r : OpResult) (s : State) : (s.answer r).device = s.device := rfl
@[simp] theorem State.answer_host (r : OpResult) (s : State) : (s.answer r).host = s.host := rfl
@[simp] theorem State.answer_dispatch (r : OpResult) (s : State) : (s.answer r).dispatch = s.dispatch := rfl

/-! enter adds a request level alone (R23, R30). -/

@[simp] theorem State.enter_cfg (a : Act) (l : Label) (s : State) : (s.enter a l).cfg = s.cfg := rfl
@[simp] theorem State.enter_pc (a : Act) (l : Label) (s : State) : (s.enter a l).pc = l :: s.pc := rfl
@[simp] theorem State.enter_op (a : Act) (l : Label) (s : State) : (s.enter a l).op = s.op := rfl
@[simp] theorem State.enter_pending (a : Act) (l : Label) (s : State) : (s.enter a l).pending = s.pending := rfl
@[simp] theorem State.enter_opResult (a : Act) (l : Label) (s : State) : (s.enter a l).opResult = .empty := rfl
@[simp] theorem State.enter_initBank (a : Act) (l : Label) (s : State) : (s.enter a l).initBank = s.initBank := rfl
@[simp] theorem State.enter_poll (a : Act) (l : Label) (s : State) : (s.enter a l).poll = s.poll := rfl
@[simp] theorem State.enter_rx (a : Act) (l : Label) (s : State) : (s.enter a l).rx = s.rx := rfl
@[simp] theorem State.enter_tx (a : Act) (l : Label) (s : State) : (s.enter a l).tx = s.tx := rfl
@[simp] theorem State.enter_mode (a : Act) (l : Label) (s : State) : (s.enter a l).mode = s.mode := rfl
@[simp] theorem State.enter_act (a : Act) (l : Label) (s : State) : (s.enter a l).act = a := rfl
@[simp] theorem State.enter_fb (a : Act) (l : Label) (s : State) : (s.enter a l).fb = s.fb := rfl
@[simp] theorem State.enter_len (a : Act) (l : Label) (s : State) : (s.enter a l).len = s.len := rfl
@[simp] theorem State.enter_fault (a : Act) (l : Label) (s : State) : (s.enter a l).fault = s.fault := rfl
@[simp] theorem State.enter_refused (a : Act) (l : Label) (s : State) : (s.enter a l).refused = s.refused := rfl
@[simp] theorem State.enter_h (a : Act) (l : Label) (s : State) : (s.enter a l).h = s.h := rfl
@[simp] theorem State.enter_bus (a : Act) (l : Label) (s : State) : (s.enter a l).bus = s.bus := rfl
@[simp] theorem State.enter_hostResult (a : Act) (l : Label) (s : State) : (s.enter a l).hostResult = s.hostResult := rfl
@[simp] theorem State.enter_dispatchResult (a : Act) (l : Label) (s : State) : (s.enter a l).dispatchResult = s.dispatchResult := rfl
@[simp] theorem State.enter_device (a : Act) (l : Label) (s : State) : (s.enter a l).device = s.device := rfl
@[simp] theorem State.enter_host (a : Act) (l : Label) (s : State) : (s.enter a l).host = s.host := rfl
@[simp] theorem State.enter_dispatch (a : Act) (l : Label) (s : State) : (s.enter a l).dispatch = s.dispatch := rfl

/-! finish ends the request level (R21, R30). -/

@[simp] theorem State.finish_cfg (r : RequestResult) (s : State) : (s.finish r).cfg = s.cfg := rfl
@[simp] theorem State.finish_pc (r : RequestResult) (s : State) : (s.finish r).pc = s.pc.tail := rfl
@[simp] theorem State.finish_op (r : RequestResult) (s : State) : (s.finish r).op = s.op := rfl
@[simp] theorem State.finish_pending (r : RequestResult) (s : State) : (s.finish r).pending = s.pending := rfl
@[simp] theorem State.finish_opResult (r : RequestResult) (s : State) : (s.finish r).opResult = .empty := rfl
@[simp] theorem State.finish_initBank (r : RequestResult) (s : State) : (s.finish r).initBank = s.initBank := rfl
@[simp] theorem State.finish_poll (r : RequestResult) (s : State) : (s.finish r).poll = s.poll := rfl
@[simp] theorem State.finish_rx (r : RequestResult) (s : State) : (s.finish r).rx = s.rx := rfl
@[simp] theorem State.finish_tx (r : RequestResult) (s : State) : (s.finish r).tx = s.tx := rfl
@[simp] theorem State.finish_mode (r : RequestResult) (s : State) : (s.finish r).mode = s.mode := rfl
@[simp] theorem State.finish_act (r : RequestResult) (s : State) : (s.finish r).act = s.act.restored := rfl
@[simp] theorem State.finish_fb (r : RequestResult) (s : State) : (s.finish r).fb = s.fb := rfl
@[simp] theorem State.finish_len (r : RequestResult) (s : State) : (s.finish r).len = s.len := rfl
@[simp] theorem State.finish_fault (r : RequestResult) (s : State) : (s.finish r).fault = s.fault := rfl
@[simp] theorem State.finish_refused (r : RequestResult) (s : State) : (s.finish r).refused = s.refused := rfl
@[simp] theorem State.finish_h (r : RequestResult) (s : State) : (s.finish r).h = s.h ++ [.ret r] := rfl
@[simp] theorem State.finish_bus (r : RequestResult) (s : State) : (s.finish r).bus = s.bus := rfl
@[simp] theorem State.finish_hostResult (r : RequestResult) (s : State) : (s.finish r).hostResult = (if s.act = .inNestedTransmit then s.hostResult else some r) := rfl
@[simp] theorem State.finish_dispatchResult (r : RequestResult) (s : State) : (s.finish r).dispatchResult = (if s.act = .inNestedTransmit then some r else s.dispatchResult) := rfl
@[simp] theorem State.finish_device (r : RequestResult) (s : State) : (s.finish r).device = s.device := rfl
@[simp] theorem State.finish_host (r : RequestResult) (s : State) : (s.finish r).host = s.host := rfl
@[simp] theorem State.finish_dispatch (r : RequestResult) (s : State) : (s.finish r).dispatch = s.dispatch := rfl

/-! setRxCursor writes two RX registers alone (R100). -/

@[simp] theorem State.setRxCursor_cfg (pa i : Word) (s : State) : (s.setRxCursor pa i).cfg = s.cfg := rfl
@[simp] theorem State.setRxCursor_pc (pa i : Word) (s : State) : (s.setRxCursor pa i).pc = s.pc := rfl
@[simp] theorem State.setRxCursor_op (pa i : Word) (s : State) : (s.setRxCursor pa i).op = s.op := rfl
@[simp] theorem State.setRxCursor_pending (pa i : Word) (s : State) : (s.setRxCursor pa i).pending = s.pending := rfl
@[simp] theorem State.setRxCursor_opResult (pa i : Word) (s : State) : (s.setRxCursor pa i).opResult = s.opResult := rfl
@[simp] theorem State.setRxCursor_initBank (pa i : Word) (s : State) : (s.setRxCursor pa i).initBank = s.initBank := rfl
@[simp] theorem State.setRxCursor_poll (pa i : Word) (s : State) : (s.setRxCursor pa i).poll = s.poll := rfl
@[simp] theorem State.setRxCursor_rx (pa i : Word) (s : State) : (s.setRxCursor pa i).rx = { s.rx with rpa := some pa, ri := some i } := rfl
@[simp] theorem State.setRxCursor_tx (pa i : Word) (s : State) : (s.setRxCursor pa i).tx = s.tx := rfl
@[simp] theorem State.setRxCursor_mode (pa i : Word) (s : State) : (s.setRxCursor pa i).mode = s.mode := rfl
@[simp] theorem State.setRxCursor_act (pa i : Word) (s : State) : (s.setRxCursor pa i).act = s.act := rfl
@[simp] theorem State.setRxCursor_fb (pa i : Word) (s : State) : (s.setRxCursor pa i).fb = s.fb := rfl
@[simp] theorem State.setRxCursor_len (pa i : Word) (s : State) : (s.setRxCursor pa i).len = s.len := rfl
@[simp] theorem State.setRxCursor_fault (pa i : Word) (s : State) : (s.setRxCursor pa i).fault = s.fault := rfl
@[simp] theorem State.setRxCursor_refused (pa i : Word) (s : State) : (s.setRxCursor pa i).refused = s.refused := rfl
@[simp] theorem State.setRxCursor_h (pa i : Word) (s : State) : (s.setRxCursor pa i).h = s.h := rfl
@[simp] theorem State.setRxCursor_bus (pa i : Word) (s : State) : (s.setRxCursor pa i).bus = s.bus := rfl
@[simp] theorem State.setRxCursor_hostResult (pa i : Word) (s : State) : (s.setRxCursor pa i).hostResult = s.hostResult := rfl
@[simp] theorem State.setRxCursor_dispatchResult (pa i : Word) (s : State) : (s.setRxCursor pa i).dispatchResult = s.dispatchResult := rfl
@[simp] theorem State.setRxCursor_device (pa i : Word) (s : State) : (s.setRxCursor pa i).device = s.device := rfl
@[simp] theorem State.setRxCursor_host (pa i : Word) (s : State) : (s.setRxCursor pa i).host = s.host := rfl
@[simp] theorem State.setRxCursor_dispatch (pa i : Word) (s : State) : (s.setRxCursor pa i).dispatch = s.dispatch := rfl

/-! setTxCursor writes two TX registers alone (R101). -/

@[simp] theorem State.setTxCursor_cfg (pa i : Word) (s : State) : (s.setTxCursor pa i).cfg = s.cfg := rfl
@[simp] theorem State.setTxCursor_pc (pa i : Word) (s : State) : (s.setTxCursor pa i).pc = s.pc := rfl
@[simp] theorem State.setTxCursor_op (pa i : Word) (s : State) : (s.setTxCursor pa i).op = s.op := rfl
@[simp] theorem State.setTxCursor_pending (pa i : Word) (s : State) : (s.setTxCursor pa i).pending = s.pending := rfl
@[simp] theorem State.setTxCursor_opResult (pa i : Word) (s : State) : (s.setTxCursor pa i).opResult = s.opResult := rfl
@[simp] theorem State.setTxCursor_initBank (pa i : Word) (s : State) : (s.setTxCursor pa i).initBank = s.initBank := rfl
@[simp] theorem State.setTxCursor_poll (pa i : Word) (s : State) : (s.setTxCursor pa i).poll = s.poll := rfl
@[simp] theorem State.setTxCursor_rx (pa i : Word) (s : State) : (s.setTxCursor pa i).rx = s.rx := rfl
@[simp] theorem State.setTxCursor_tx (pa i : Word) (s : State) : (s.setTxCursor pa i).tx = { s.tx with tpa := some pa, ti := some i } := rfl
@[simp] theorem State.setTxCursor_mode (pa i : Word) (s : State) : (s.setTxCursor pa i).mode = s.mode := rfl
@[simp] theorem State.setTxCursor_act (pa i : Word) (s : State) : (s.setTxCursor pa i).act = s.act := rfl
@[simp] theorem State.setTxCursor_fb (pa i : Word) (s : State) : (s.setTxCursor pa i).fb = s.fb := rfl
@[simp] theorem State.setTxCursor_len (pa i : Word) (s : State) : (s.setTxCursor pa i).len = s.len := rfl
@[simp] theorem State.setTxCursor_fault (pa i : Word) (s : State) : (s.setTxCursor pa i).fault = s.fault := rfl
@[simp] theorem State.setTxCursor_refused (pa i : Word) (s : State) : (s.setTxCursor pa i).refused = s.refused := rfl
@[simp] theorem State.setTxCursor_h (pa i : Word) (s : State) : (s.setTxCursor pa i).h = s.h := rfl
@[simp] theorem State.setTxCursor_bus (pa i : Word) (s : State) : (s.setTxCursor pa i).bus = s.bus := rfl
@[simp] theorem State.setTxCursor_hostResult (pa i : Word) (s : State) : (s.setTxCursor pa i).hostResult = s.hostResult := rfl
@[simp] theorem State.setTxCursor_dispatchResult (pa i : Word) (s : State) : (s.setTxCursor pa i).dispatchResult = s.dispatchResult := rfl
@[simp] theorem State.setTxCursor_device (pa i : Word) (s : State) : (s.setTxCursor pa i).device = s.device := rfl
@[simp] theorem State.setTxCursor_host (pa i : Word) (s : State) : (s.setTxCursor pa i).host = s.host := rfl
@[simp] theorem State.setTxCursor_dispatch (pa i : Word) (s : State) : (s.setTxCursor pa i).dispatch = s.dispatch := rfl

/-! the callout's return (R144). -/

@[simp] theorem State.returnFromCallout_cfg (s : State) : s.returnFromCallout.cfg = s.cfg := rfl
@[simp] theorem State.returnFromCallout_pc (s : State) : s.returnFromCallout.pc = s.pc.tail := rfl
@[simp] theorem State.returnFromCallout_op (s : State) : s.returnFromCallout.op = s.op := rfl
@[simp] theorem State.returnFromCallout_pending (s : State) : s.returnFromCallout.pending = s.pending := rfl
@[simp] theorem State.returnFromCallout_opResult (s : State) : s.returnFromCallout.opResult = .done := rfl
@[simp] theorem State.returnFromCallout_initBank (s : State) : s.returnFromCallout.initBank = s.initBank := rfl
@[simp] theorem State.returnFromCallout_poll (s : State) : s.returnFromCallout.poll = s.poll := rfl
@[simp] theorem State.returnFromCallout_rx (s : State) : s.returnFromCallout.rx = s.rx := rfl
@[simp] theorem State.returnFromCallout_tx (s : State) : s.returnFromCallout.tx = s.tx := rfl
@[simp] theorem State.returnFromCallout_mode (s : State) : s.returnFromCallout.mode = s.mode := rfl
@[simp] theorem State.returnFromCallout_act (s : State) : s.returnFromCallout.act = .inPoll := rfl
@[simp] theorem State.returnFromCallout_fb (s : State) : s.returnFromCallout.fb = s.fb := rfl
@[simp] theorem State.returnFromCallout_len (s : State) : s.returnFromCallout.len = s.len := rfl
@[simp] theorem State.returnFromCallout_fault (s : State) : s.returnFromCallout.fault = s.fault := rfl
@[simp] theorem State.returnFromCallout_refused (s : State) : s.returnFromCallout.refused = s.refused := rfl
@[simp] theorem State.returnFromCallout_h (s : State) : s.returnFromCallout.h = s.h := rfl
@[simp] theorem State.returnFromCallout_bus (s : State) : s.returnFromCallout.bus = s.bus := rfl
@[simp] theorem State.returnFromCallout_hostResult (s : State) : s.returnFromCallout.hostResult = s.hostResult := rfl
@[simp] theorem State.returnFromCallout_dispatchResult (s : State) : s.returnFromCallout.dispatchResult = s.dispatchResult := rfl
@[simp] theorem State.returnFromCallout_device (s : State) : s.returnFromCallout.device = s.device := rfl
@[simp] theorem State.returnFromCallout_host (s : State) : s.returnFromCallout.host = s.host := rfl
@[simp] theorem State.returnFromCallout_dispatch (s : State) : s.returnFromCallout.dispatch = s.dispatch := rfl

/-! a read frame touches the history, the bus port and the device alone (R92). -/

@[simp] theorem busRead_cfg (a : Word) (s : State) : (busRead a s).2.cfg = s.cfg := rfl
@[simp] theorem busRead_pc (a : Word) (s : State) : (busRead a s).2.pc = s.pc := rfl
@[simp] theorem busRead_op (a : Word) (s : State) : (busRead a s).2.op = s.op := rfl
@[simp] theorem busRead_pending (a : Word) (s : State) : (busRead a s).2.pending = s.pending := rfl
@[simp] theorem busRead_opResult (a : Word) (s : State) : (busRead a s).2.opResult = s.opResult := rfl
@[simp] theorem busRead_initBank (a : Word) (s : State) : (busRead a s).2.initBank = s.initBank := rfl
@[simp] theorem busRead_poll (a : Word) (s : State) : (busRead a s).2.poll = s.poll := rfl
@[simp] theorem busRead_rx (a : Word) (s : State) : (busRead a s).2.rx = s.rx := rfl
@[simp] theorem busRead_tx (a : Word) (s : State) : (busRead a s).2.tx = s.tx := rfl
@[simp] theorem busRead_mode (a : Word) (s : State) : (busRead a s).2.mode = s.mode := rfl
@[simp] theorem busRead_act (a : Word) (s : State) : (busRead a s).2.act = s.act := rfl
@[simp] theorem busRead_fb (a : Word) (s : State) : (busRead a s).2.fb = s.fb := rfl
@[simp] theorem busRead_len (a : Word) (s : State) : (busRead a s).2.len = s.len := rfl
@[simp] theorem busRead_fault (a : Word) (s : State) : (busRead a s).2.fault = s.fault := rfl
@[simp] theorem busRead_refused (a : Word) (s : State) : (busRead a s).2.refused = s.refused := rfl
@[simp] theorem busRead_h (a : Word) (s : State) : (busRead a s).2.h = s.h ++ [.r8 a (s.device.read s.cfg a).1] := rfl
@[simp] theorem busRead_bus (a : Word) (s : State) : (busRead a s).2.bus = s.bus.frame s.cfg.opRead a 0x00 := rfl
@[simp] theorem busRead_hostResult (a : Word) (s : State) : (busRead a s).2.hostResult = s.hostResult := rfl
@[simp] theorem busRead_dispatchResult (a : Word) (s : State) : (busRead a s).2.dispatchResult = s.dispatchResult := rfl
@[simp] theorem busRead_device (a : Word) (s : State) : (busRead a s).2.device = (s.device.read s.cfg a).2 := rfl
@[simp] theorem busRead_host (a : Word) (s : State) : (busRead a s).2.host = s.host := rfl
@[simp] theorem busRead_dispatch (a : Word) (s : State) : (busRead a s).2.dispatch = s.dispatch := rfl

/-! a write frame touches the history, the bus port and the device alone (R93). -/

@[simp] theorem busWrite_cfg (a : Word) (d : Byte) (s : State) : (busWrite a d s).cfg = s.cfg := rfl
@[simp] theorem busWrite_pc (a : Word) (d : Byte) (s : State) : (busWrite a d s).pc = s.pc := rfl
@[simp] theorem busWrite_op (a : Word) (d : Byte) (s : State) : (busWrite a d s).op = s.op := rfl
@[simp] theorem busWrite_pending (a : Word) (d : Byte) (s : State) : (busWrite a d s).pending = s.pending := rfl
@[simp] theorem busWrite_opResult (a : Word) (d : Byte) (s : State) : (busWrite a d s).opResult = s.opResult := rfl
@[simp] theorem busWrite_initBank (a : Word) (d : Byte) (s : State) : (busWrite a d s).initBank = s.initBank := rfl
@[simp] theorem busWrite_poll (a : Word) (d : Byte) (s : State) : (busWrite a d s).poll = s.poll := rfl
@[simp] theorem busWrite_rx (a : Word) (d : Byte) (s : State) : (busWrite a d s).rx = s.rx := rfl
@[simp] theorem busWrite_tx (a : Word) (d : Byte) (s : State) : (busWrite a d s).tx = s.tx := rfl
@[simp] theorem busWrite_mode (a : Word) (d : Byte) (s : State) : (busWrite a d s).mode = s.mode := rfl
@[simp] theorem busWrite_act (a : Word) (d : Byte) (s : State) : (busWrite a d s).act = s.act := rfl
@[simp] theorem busWrite_fb (a : Word) (d : Byte) (s : State) : (busWrite a d s).fb = s.fb := rfl
@[simp] theorem busWrite_len (a : Word) (d : Byte) (s : State) : (busWrite a d s).len = s.len := rfl
@[simp] theorem busWrite_fault (a : Word) (d : Byte) (s : State) : (busWrite a d s).fault = s.fault := rfl
@[simp] theorem busWrite_refused (a : Word) (d : Byte) (s : State) : (busWrite a d s).refused = s.refused := rfl
@[simp] theorem busWrite_h (a : Word) (d : Byte) (s : State) : (busWrite a d s).h = s.h ++ [.w8 a d] := rfl
@[simp] theorem busWrite_bus (a : Word) (d : Byte) (s : State) : (busWrite a d s).bus = s.bus.frame s.cfg.opWrite a d := rfl
@[simp] theorem busWrite_hostResult (a : Word) (d : Byte) (s : State) : (busWrite a d s).hostResult = s.hostResult := rfl
@[simp] theorem busWrite_dispatchResult (a : Word) (d : Byte) (s : State) : (busWrite a d s).dispatchResult = s.dispatchResult := rfl
@[simp] theorem busWrite_device (a : Word) (d : Byte) (s : State) : (busWrite a d s).device = s.device.write s.cfg a d := rfl
@[simp] theorem busWrite_host (a : Word) (d : Byte) (s : State) : (busWrite a d s).host = s.host := rfl
@[simp] theorem busWrite_dispatch (a : Word) (d : Byte) (s : State) : (busWrite a d s).dispatch = s.dispatch := rfl

@[simp] theorem busRead_fst (a : Word) (s : State) : (busRead a s).1 = (s.device.read s.cfg a).1 := rfl

/-! The engine's reset puts every engine state at its reset value (R171, R172). -/

@[simp] theorem State.engineReset_cfg (s : State) : s.engineReset.cfg = s.cfg := rfl
@[simp] theorem State.engineReset_pc (s : State) : s.engineReset.pc = [] := rfl
@[simp] theorem State.engineReset_op (s : State) : s.engineReset.op = none := rfl
@[simp] theorem State.engineReset_pending (s : State) : s.engineReset.pending = none := rfl
@[simp] theorem State.engineReset_opResult (s : State) : s.engineReset.opResult = .empty := rfl
@[simp] theorem State.engineReset_initBank (s : State) : s.engineReset.initBank = .unwritten := rfl
@[simp] theorem State.engineReset_poll (s : State) : s.engineReset.poll = .unwritten := rfl
@[simp] theorem State.engineReset_rx (s : State) : s.engineReset.rx = .unwritten := rfl
@[simp] theorem State.engineReset_tx (s : State) : s.engineReset.tx = .unwritten := rfl
@[simp] theorem State.engineReset_mode (s : State) : s.engineReset.mode = .reset := rfl
@[simp] theorem State.engineReset_act (s : State) : s.engineReset.act = .idle := rfl
@[simp] theorem State.engineReset_fb (s : State) : s.engineReset.fb = [] := rfl
@[simp] theorem State.engineReset_len (s : State) : s.engineReset.len = none := rfl
@[simp] theorem State.engineReset_fault (s : State) : s.engineReset.fault = none := rfl
@[simp] theorem State.engineReset_refused (s : State) : s.engineReset.refused = none := rfl
@[simp] theorem State.engineReset_h (s : State) : s.engineReset.h = [] := rfl
@[simp] theorem State.engineReset_bus (s : State) : s.engineReset.bus = ⟨false, []⟩ := rfl
@[simp] theorem State.engineReset_hostResult (s : State) : s.engineReset.hostResult = none := rfl
@[simp] theorem State.engineReset_dispatchResult (s : State) : s.engineReset.dispatchResult = none := rfl
@[simp] theorem State.engineReset_device (s : State) : s.engineReset.device = s.device := rfl
@[simp] theorem State.engineReset_host (s : State) : s.engineReset.host = s.host := rfl
@[simp] theorem State.engineReset_dispatch (s : State) : s.engineReset.dispatch = s.dispatch := rfl

end Sys2Proof.Machine
end

