-- ==== Sys2Proof/Laws/Memory.lean ====
section
/-! SUPPORT. The laws of the two memories: a read after a write to the same address gives the value written, a write leaves every other address alone, and every memory operation keeps the canonical form. -/

namespace Sys2Proof.Machine

variable {un : Nat → Option Byte} {m : List Host.Cell} {a k : Nat} {b : Byte}

theorem Memory.lookup_erase_self : Memory.lookup (Memory.erase m a) a = none := by
  induction m with
  | nil => rfl
  | cons c m ih =>
    obtain ⟨k, x⟩ := c
    by_cases h : k = a <;> simp_all [Memory.erase, Memory.lookup]

theorem Memory.lookup_erase_other (h : k ≠ a) : Memory.lookup (Memory.erase m a) k = Memory.lookup m k := by
  induction m with
  | nil => rfl
  | cons c m ih =>
    obtain ⟨j, x⟩ := c
    by_cases hj : j = a
    · subst hj; simp_all [Memory.erase, Memory.lookup, Ne.symm h]
    · simp_all [Memory.erase, Memory.lookup]

theorem Memory.lookup_insert_self : Memory.lookup (Memory.insert m a b) a = some b := by
  induction m with
  | nil => simp [Memory.insert, Memory.lookup]
  | cons c m ih =>
    obtain ⟨j, x⟩ := c
    unfold Memory.insert
    split
    · simp [Memory.lookup]
    · split
      · simp [Memory.lookup]
      · rename_i h; simp [Memory.lookup, Ne.symm h, ih]

theorem Memory.lookup_insert_other (h : k ≠ a) : Memory.lookup (Memory.insert m a b) k = Memory.lookup m k := by
  induction m with
  | nil => simp [Memory.insert, Memory.lookup, Ne.symm h]
  | cons c m ih =>
    obtain ⟨j, x⟩ := c
    unfold Memory.insert
    split
    · simp [Memory.lookup, Ne.symm h]
    · split
      · rename_i hj; subst hj; simp [Memory.lookup, Ne.symm h]
      · simp [Memory.lookup, ih]

/-- A read after a write to the same address gives the byte written. -/
theorem Memory.read_write_self : Memory.read un (Memory.write un m a b) a = some b := by
  unfold Memory.read Memory.write
  split <;> rename_i h
  · split at h
    · simp [Memory.lookup_erase_self] at h
    · simpa [Memory.lookup_insert_self] using h.symm
  · split at h
    · assumption
    · simp [Memory.lookup_insert_self] at h

/-- A write leaves every other address alone. -/
theorem Memory.read_write_other (h : k ≠ a) : Memory.read un (Memory.write un m a b) k = Memory.read un m k := by
  have : Memory.lookup (Memory.write un m a b) k = Memory.lookup m k := by
    unfold Memory.write
    split
    · exact Memory.lookup_erase_other h
    · exact Memory.lookup_insert_other h
  simp only [Memory.read, this]

theorem Memory.above_of_le {j : Nat} (h : Memory.above k m = true) (hj : j ≤ k) : Memory.above j m = true := by
  simp only [Memory.above, List.all_eq_true, decide_eq_true_eq] at *
  exact fun x hx => lt_of_le_of_lt hj (h x hx)

theorem Memory.above_erase (h : Memory.above k m = true) : Memory.above k (Memory.erase m a) = true := by
  simp only [Memory.above, Memory.erase, List.all_eq_true, List.mem_filter] at *
  exact fun x hx => h x hx.1

theorem Memory.above_insert (h : Memory.above k m = true) (ha : k < a) :
    Memory.above k (Memory.insert m a b) = true := by
  induction m with
  | nil => simpa [Memory.insert, Memory.above] using ha
  | cons c m ih =>
    obtain ⟨j, x⟩ := c
    simp only [Memory.above, List.all_cons, Bool.and_eq_true, decide_eq_true_eq] at h ih
    unfold Memory.insert
    split
    · simpa [Memory.above] using ⟨ha, h.1, by simpa using h.2⟩
    · split
      · simpa [Memory.above] using ⟨ha, by simpa using h.2⟩
      · simpa [Memory.above] using ⟨h.1, by simpa using ih h.2⟩

theorem Memory.wf_cons_iff {x : Byte} : Memory.wf un ((k, x) :: m) = true ↔
    Memory.above k m = true ∧ un k ≠ some x ∧ Memory.wf un m = true := by
  simp [Memory.wf, and_assoc]

theorem Memory.wf_erase (h : Memory.wf un m = true) : Memory.wf un (Memory.erase m a) = true := by
  induction m with
  | nil => rfl
  | cons c m ih =>
    obtain ⟨j, x⟩ := c
    obtain ⟨h1, h2, h3⟩ := Memory.wf_cons_iff.1 h
    by_cases hj : j = a
    · simpa [Memory.erase, hj] using ih h3
    · have : Memory.erase ((j, x) :: m) a = (j, x) :: Memory.erase m a := by simp [Memory.erase, hj]
      rw [this]
      exact Memory.wf_cons_iff.2 ⟨Memory.above_erase h1, h2, ih h3⟩

theorem Memory.wf_insert (h : Memory.wf un m = true) (hb : un a ≠ some b) :
    Memory.wf un (Memory.insert m a b) = true := by
  induction m with
  | nil => exact Memory.wf_cons_iff.2 ⟨rfl, hb, rfl⟩
  | cons c m ih =>
    obtain ⟨j, x⟩ := c
    obtain ⟨h1, h2, h3⟩ := Memory.wf_cons_iff.1 h
    unfold Memory.insert
    split
    · rename_i hlt
      refine Memory.wf_cons_iff.2 ⟨?_, hb, h⟩
      simpa [Memory.above] using ⟨hlt, by simpa [Memory.above] using Memory.above_of_le h1 hlt.le⟩
    · split
      · rename_i hj; subst hj; exact Memory.wf_cons_iff.2 ⟨h1, hb, h3⟩
      · exact Memory.wf_cons_iff.2 ⟨Memory.above_insert h1 (by omega), h2, ih h3⟩

/-- A write keeps the canonical form. -/
theorem Memory.wf_write (h : Memory.wf un m = true) : Memory.wf un (Memory.write un m a b) = true := by
  unfold Memory.write
  split
  · exact Memory.wf_erase h
  · exact Memory.wf_insert h ‹_›

theorem Memory.all_insert {P : Host.Cell → Bool} (h : m.all P = true) (hp : P (a, b) = true) :
    (Memory.insert m a b).all P = true := by
  induction m with
  | nil => simpa [Memory.insert] using hp
  | cons c m ih =>
    obtain ⟨j, x⟩ := c
    simp only [List.all_cons, Bool.and_eq_true] at h
    unfold Memory.insert
    split
    · simp [hp, h.1, h.2]
    · split
      · simp [hp, h.2]
      · simp [h.1, ih h.2]

/-- A write keeps a property of every cell that the written cell has. -/
theorem Memory.all_write {P : Host.Cell → Bool} (h : m.all P = true) (hp : P (a, b) = true) :
    (Memory.write un m a b).all P = true := by
  unfold Memory.write
  split
  · simp only [Memory.erase, List.all_eq_true, List.mem_filter] at *
    exact fun x hx => h x hx.1
  · exact Memory.all_insert h hp

/-- FB[i] after FB[i] <- b (R26). -/
theorem State.readFb_writeFb_self (i : Word) (s : State) : (s.writeFb i b).readFb i.toNat = some b :=
  Memory.read_write_self

/-- Another byte of FB after FB[i] <- b (R26). -/
theorem State.readFb_writeFb_other {i : Word} {j : Nat} (h : j ≠ i.toNat) (s : State) :
    (s.writeFb i b).readFb j = s.readFb j := Memory.read_write_other h

theorem State.reset_memoryFits : State.reset.memoryFits = true := by decide

end Sys2Proof.Machine
end

