-- ==== Sys2Proof/Laws/Bus.lean ====
section
/-! SUPPORT. What a bus frame does, once for each: the bus port's record, the device's answer and what it holds, and the halves of 16-bit values. -/

namespace Sys2Proof.Machine

/-! Halves of a 16-bit value (R84, R85). -/

@[simp] theorem concatBytes_hi_lo (v : Word) : concatBytes (hiByte v) (loByte v) = v := by
  apply BitVec.eq_of_toNat_eq
  simp only [concatBytes, hiByte, loByte, BitVec.toNat_append, BitVec.extractLsb'_toNat]
  rw [← Nat.shiftLeft_add_eq_or_of_lt (by omega)]
  simp only [Nat.shiftLeft_eq, Nat.shiftRight_eq_div_pow]
  have := v.isLt
  omega

theorem concatBytes_toNat (hi lo : Byte) : (concatBytes hi lo).toNat = hi.toNat * 256 + lo.toNat := by
  simp only [concatBytes, BitVec.toNat_append]
  rw [← Nat.shiftLeft_add_eq_or_of_lt lo.isLt, Nat.shiftLeft_eq]

@[simp] theorem hiByte_concatBytes (hi lo : Byte) : hiByte (concatBytes hi lo) = hi := by
  apply BitVec.eq_of_toNat_eq
  simp only [hiByte, BitVec.extractLsb'_toNat, concatBytes_toNat, Nat.shiftRight_eq_div_pow]
  have := lo.isLt
  have := hi.isLt
  omega

@[simp] theorem loByte_concatBytes (hi lo : Byte) : loByte (concatBytes hi lo) = lo := by
  apply BitVec.eq_of_toNat_eq
  simp only [loByte, BitVec.extractLsb'_toNat, concatBytes_toNat, Nat.shiftRight_eq_div_pow]
  have := lo.isLt
  omega

@[simp] theorem loByte_zeroExtend (b : Byte) : loByte (zeroExtend b) = b := by
  apply BitVec.eq_of_toNat_eq
  simp only [loByte, zeroExtend, BitVec.extractLsb'_toNat, BitVec.toNat_setWidth, Nat.shiftRight_zero]
  have := b.isLt
  omega

theorem nextAddr_ne (a : Word) : nextAddr a ≠ a := by
  unfold nextAddr
  bv_omega

/-! The bus port (R71, R75). -/

/-- A frame on the bus port: one bracket around its four bytes, and the bus released (R75). -/
theorem Bus.frame_eq (op : Byte) (a : Word) (d : Byte) (b : Bus) :
    b.frame op a d = ⟨false, b.wire ++ frameActs (frameBytes op a d)⟩ := by
  simp [Bus.frame, Bus.acquire, Bus.xchg, Bus.release, frameActs, frameBytes]

/-! The device (R47 to R51). -/

theorem Device.held_store_self (c : Config) (dev : Device) (a : Word) (b : Byte) :
    (dev.store c a b).held c a = some b := Memory.read_write_self

theorem Device.held_store_other {a a' : Word} (h : a' ≠ a) (c : Config) (dev : Device) (b : Byte) :
    (dev.store c a b).held c a' = dev.held c a' :=
  Memory.read_write_other (fun e => h (BitVec.eq_of_toNat_eq e))

/-- After a read frame the device holds what its own steps left (R48). -/
theorem Device.read_held (c : Config) (a a' : Word) (dev : Device) :
    (dev.read c a).2.held c a' = (dev.takeTurn c).held c a' := by
  unfold Device.read
  split <;> rfl

/-- A device whose turn tells an answer answers it (R51). -/
theorem Device.read_of_answer {c : Config} {a : Word} {dev : Device} {t : DeviceTurn} {ts : List DeviceTurn} {b : Byte}
    (h : dev.turns = t :: ts) (hb : t.answer = some b) : (dev.read c a).1 = b := by
  simp [Device.read, Device.told, h, hb]

@[simp] theorem Device.change_turns (c : Config) (cs : List (Word × Byte)) (dev : Device) :
    (Device.change c cs dev).turns = dev.turns := by
  induction cs generalizing dev with
  | nil => rfl
  | cons x cs ih => simp [Device.change, ih, Device.store]

@[simp] theorem Device.takeTurn_turns (c : Config) (dev : Device) : (dev.takeTurn c).turns = dev.turns.tail := by
  unfold Device.takeTurn
  split <;> simp_all

@[simp] theorem Device.take_turns (c : Config) (a : Word) (v : Byte) (dev : Device) :
    (dev.take c a v).turns = dev.turns := by
  unfold Device.take
  split
  · rfl
  · split
    · split <;> rfl
    · split <;> rfl

@[simp] theorem Device.write_turns (c : Config) (a : Word) (v : Byte) (dev : Device) :
    (dev.write c a v).turns = dev.turns.tail := by simp [Device.write]

@[simp] theorem Device.read_turns (c : Config) (a : Word) (dev : Device) :
    (dev.read c a).2.turns = dev.turns.tail := by
  unfold Device.read
  split <;> simp

/-! The device's space keeps its form under every frame. -/

/-- The device's space is in canonical form and inside its 16-bit addresses. -/
def Device.spaceFits (c : Config) (dev : Device) : Bool :=
  Memory.wf (deviceResetByte c) dev.space && dev.space.all (fun x => decide (x.1 < 65536))

theorem Device.store_spaceFits {c : Config} {dev : Device} (h : dev.spaceFits c = true) (a : Word) (b : Byte) :
    (dev.store c a b).spaceFits c = true := by
  simp only [Device.spaceFits, Bool.and_eq_true] at *
  exact ⟨Memory.wf_write h.1, Memory.all_write h.2 (by simpa using a.isLt)⟩

theorem Device.change_spaceFits {c : Config} (cs : List (Word × Byte)) {dev : Device} (h : dev.spaceFits c = true) :
    (Device.change c cs dev).spaceFits c = true := by
  induction cs generalizing dev with
  | nil => exact h
  | cons x cs ih => exact ih (Device.store_spaceFits h _ _)

theorem Device.takeTurn_spaceFits {c : Config} {dev : Device} (h : dev.spaceFits c = true) :
    (dev.takeTurn c).spaceFits c = true := by
  unfold Device.takeTurn
  split
  · exact h
  · exact Device.change_spaceFits _ h

theorem Device.read_spaceFits {c : Config} {dev : Device} (h : dev.spaceFits c = true) (a : Word) :
    (dev.read c a).2.spaceFits c = true := by
  unfold Device.read
  split <;> exact Device.takeTurn_spaceFits h

theorem Device.take_spaceFits {c : Config} {dev : Device} (h : dev.spaceFits c = true) (a : Word) (v : Byte) :
    (dev.take c a v).spaceFits c = true := by
  unfold Device.take
  split
  · rfl
  · split
    · split
      · exact Device.store_spaceFits h _ _
      · exact h
    · split
      · exact h
      · exact Device.store_spaceFits h _ _

theorem Device.write_spaceFits {c : Config} {dev : Device} (h : dev.spaceFits c = true) (a : Word) (v : Byte) :
    (dev.write c a v).spaceFits c = true := Device.take_spaceFits (Device.takeTurn_spaceFits h) a v

end Sys2Proof.Machine
end

