-- ==== Sys2Proof/Laws/Copy.lean ====
section
/-! SUPPORT. What a read of a working register and one turn of each copy loop can do. -/

namespace Sys2Proof.Machine

/-- A working register is read when it is written; an unwritten one raises UnwrittenRead (R24). -/
@[simp] theorem withWritten_some {α : Type} (v : α) (s : State) (k : α → Answer) : withWritten (some v) s k = k v := rfl

@[simp] theorem withWritten_none {α : Type} (s : State) (k : α → Answer) :
    withWritten none s k = .next (s.raise .unwrittenRead) := rfl

/-- A read of a working register, LEN or FB byte: unwritten and the fault, or written and what follows. -/
theorem withWritten_next {α : Type} {x : Option α} {s t : State} {k : α → Answer} (h : withWritten x s k = .next t) :
    (x = none ∧ t = s.raise .unwrittenRead) ∨ ∃ v, x = some v ∧ k v = .next t := by
  cases x with
  | none =>
    cases h
    exact .inl ⟨rfl, rfl⟩
  | some v => exact .inr ⟨v, rfl, h⟩

/-- A read of a working register answers a next state when what follows does. -/
theorem withWritten_answers {α : Type} (x : Option α) (s : State) (k : α → Answer) (hk : ∀ v, ∃ t, k v = .next t) :
    ∃ t, withWritten x s k = .next t := by
  cases x with
  | none => exact ⟨_, rfl⟩
  | some v => exact hk v

/-- One turn of COPY_IN (R100): a register or the cursor's window or the buffer's end stops it, the count is reached, or
one byte is read into the frame buffer and the rest is pending. -/
theorem copyInTurn_cases {s t : State} (h : copyInTurn s = .next t) :
    ((s.rx.size = none ∨ s.rx.rpa = none ∨ s.rx.ri = none) ∧ t = s.raise .unwrittenRead) ∨
    ∃ n pa i, s.rx.size = some n ∧ s.rx.rpa = some pa ∧ s.rx.ri = some i ∧
      ((n ≤ i ∧ t = s.answer .done) ∨
       (i < n ∧ inWindow s.cfg.rxBase s.cfg.rxMask pa = false ∧ t = s.raise .protocolDesync) ∨
       (i < n ∧ s.cfg.cap ≤ i ∧ t = s.raise .frameBufferBounds) ∨
       (i < n ∧ inWindow s.cfg.rxBase s.cfg.rxMask pa = true ∧ i < s.cfg.cap ∧ t = (copyInByte pa i s).pend .copyIn)) := by
  unfold copyInTurn at h
  rcases withWritten_next h with ⟨h0, rfl⟩ | ⟨n, hn, h⟩
  · exact .inl ⟨.inl h0, rfl⟩
  rcases withWritten_next h with ⟨h0, rfl⟩ | ⟨pa, hpa, h⟩
  · exact .inl ⟨.inr (.inl h0), rfl⟩
  rcases withWritten_next h with ⟨h0, rfl⟩ | ⟨i, hi, h⟩
  · exact .inl ⟨.inr (.inr h0), rfl⟩
  refine .inr ⟨n, pa, i, hn, hpa, hi, ?_⟩
  split at h
  · rename_i hle
    cases h
    exact .inl ⟨hle, rfl⟩
  · rename_i hle
    have hlt := BitVec.not_le.1 hle
    split at h
    · rename_i hw
      cases h
      exact .inr (.inl ⟨hlt, by simpa using hw, rfl⟩)
    · rename_i hw
      split at h <;> rename_i hc <;> cases h
      · exact .inr (.inr (.inl ⟨hlt, hc, rfl⟩))
      · exact .inr (.inr (.inr ⟨hlt, by simpa using hw, BitVec.not_le.1 hc, rfl⟩))

/-- One turn of COPY_OUT (R101): a register, the buffer's end, an unwritten byte or the cursor's window stops it, the
count is reached, or one byte is written to the ring and the rest is pending. -/
theorem copyOutTurn_cases {s t : State} (h : copyOutTurn s = .next t) :
    ((s.tx.tlen = none ∨ s.tx.tpa = none ∨ s.tx.ti = none) ∧ t = s.raise .unwrittenRead) ∨
    ∃ n pa i, s.tx.tlen = some n ∧ s.tx.tpa = some pa ∧ s.tx.ti = some i ∧
      ((n ≤ i ∧ t = s.answer .done) ∨
       (i < n ∧ s.cfg.cap ≤ i ∧ t = s.raise .frameBufferBounds) ∨
       (i < n ∧ i < s.cfg.cap ∧ s.readFb i.toNat = none ∧ t = s.raise .unwrittenRead) ∨
       ∃ b, i < n ∧ i < s.cfg.cap ∧ s.readFb i.toNat = some b ∧
        ((inWindow s.cfg.txBase s.cfg.txMask pa = false ∧ t = s.raise .protocolDesync) ∨
         (inWindow s.cfg.txBase s.cfg.txMask pa = true ∧ t = (copyOutByte pa i b s).pend .copyOut))) := by
  unfold copyOutTurn at h
  rcases withWritten_next h with ⟨h0, rfl⟩ | ⟨n, hn, h⟩
  · exact .inl ⟨.inl h0, rfl⟩
  rcases withWritten_next h with ⟨h0, rfl⟩ | ⟨pa, hpa, h⟩
  · exact .inl ⟨.inr (.inl h0), rfl⟩
  rcases withWritten_next h with ⟨h0, rfl⟩ | ⟨i, hi, h⟩
  · exact .inl ⟨.inr (.inr h0), rfl⟩
  refine .inr ⟨n, pa, i, hn, hpa, hi, ?_⟩
  split at h
  · rename_i hle
    cases h
    exact .inl ⟨hle, rfl⟩
  · rename_i hle
    have hlt := BitVec.not_le.1 hle
    split at h
    · rename_i hc
      cases h
      exact .inr (.inl ⟨hlt, hc, rfl⟩)
    · rename_i hc
      have hcap := BitVec.not_le.1 hc
      rcases withWritten_next h with ⟨h0, rfl⟩ | ⟨b, hb, h⟩
      · exact .inr (.inr (.inl ⟨hlt, hcap, h0, rfl⟩))
      · refine .inr (.inr (.inr ⟨b, hlt, hcap, hb, ?_⟩))
        split at h <;> rename_i hw <;> cases h
        · exact .inl ⟨by simpa using hw, rfl⟩
        · exact .inr ⟨by simpa using hw, rfl⟩

/-- One turn of COPY_IN always answers a next state. -/
theorem copyInTurn_answers (s : State) : ∃ t, copyInTurn s = .next t :=
  withWritten_answers _ _ _ fun n => withWritten_answers _ _ _ fun pa => withWritten_answers _ _ _ fun i => by
    split
    · exact ⟨_, rfl⟩
    · split
      · exact ⟨_, rfl⟩
      · split <;> exact ⟨_, rfl⟩

/-- One turn of COPY_OUT always answers a next state. -/
theorem copyOutTurn_answers (s : State) : ∃ t, copyOutTurn s = .next t :=
  withWritten_answers _ _ _ fun n => withWritten_answers _ _ _ fun pa => withWritten_answers _ _ _ fun i => by
    split
    · exact ⟨_, rfl⟩
    · split
      · exact ⟨_, rfl⟩
      · refine withWritten_answers _ _ _ fun b => ?_
        split <;> exact ⟨_, rfl⟩

end Sys2Proof.Machine
end

