-- ==== Sys2Proof/Certificates/Slice0/Obligations.lean ====
section
/-! DEFINITION. The statements for the provers, each from the numbered rules of spec/. -/

open Sys2Proof Sys2Proof.Machine

/-! Encoding (30_encoding.md). -/

/-- Decoding the encoding of a well-formed operation gives it back, every operand at every value (R71 to R80). -/
def Obligations.DecodeEncodeRoundTrip : Prop :=
  ∀ i : Instr, i.wf RegMap.default = true → decode Config.default i.port (encode Config.default i) = .ok i

/-- Under any REGMAP a bus operation's frame decodes to an operation that does the same, however names collide. -/
def Obligations.DecodedFrameMeansTheSame : Prop :=
  ∀ (s : State) (i : Instr), s.cfg.opRead ≠ s.cfg.opWrite → i.port = .bus →
    ∃ j, decode s.cfg .bus (encode s.cfg i) = .ok j ∧ exec j s = exec i s

/-- The words of the table's bus frames, of R78 and of the codes of R79 and R80 decode to the rows they stand for, every
row once, and a frame whose byte 0 is neither opcode is `Invalid` (R86). The model's choices: the first frame of a 64-bit
word is its low half (log 33), and the 8-bit words 0x80 to 0x83, which the host port reserves, are the internal operations
(log 15). -/
def Obligations.TableWordsDecode : Prop :=
  decodeTableWord 32 0x0F042000 = some (.read8 0x0420) ∧ decodeTableWord 32 0xF047FEA1 = some (.write8 0x47FE 0xA1) ∧
  decodeTableWord 64 0x0F0425000F042400 = some (.read16 0x0424) ∧
  decodeTableWord 64 0xF0042502F0042408 = some (.write16 0x0424 0x0802) ∧
  decodeTableWord 32 0xF0000080 = some .mrReset ∧ decodeTableWord 32 0xF0001600 = some .imrClear ∧
  decodeTableWord 32 0xF0040004 = some .setMacraw ∧ decodeTableWord 32 0xF0040101 = some .cmdOpen ∧
  decodeTableWord 32 0xF0040110 = some .cmdClose ∧ decodeTableWord 32 0xF0040140 = some .cmdRecv ∧
  decodeTableWord 32 0xF0040120 = some .cmdSend ∧ decodeTableWord 32 0xF0040210 = some .ackSendOk ∧
  decodeTableWord 32 0xF0040204 = some .ackRecv ∧ decodeTableWord 32 0xF0001581 = some (.ackIr 0x81) ∧
  decodeTableWord 32 0x0F040300 = some .readSr ∧ decodeTableWord 32 0x0F001500 = some .readIr ∧
  decodeTableWord 32 0x0F040200 = some .readS0Ir ∧
  decodeTableWord 8 0x01 = some .init ∧ decodeTableWord 8 0x02 = some .pollOnce ∧ decodeTableWord 8 0x03 = some .transmit ∧
  decodeTableWord 8 0x00 = some (.reservedRequest 0x00) ∧ decodeTableWord 8 0xFF = some (.reservedRequest 0xFF) ∧
  decodeTableWord 8 0x80 = some .receiveDrain ∧ decodeTableWord 8 0x81 = some .copyIn ∧
  decodeTableWord 8 0x82 = some .copyOut ∧ decodeTableWord 8 0x83 = some .dispatch ∧
  (∀ code ∈ ([0x80, 0x81, 0x82, 0x83] : List Byte), decodeRequest code = .reservedRequest code) ∧
  ∀ (c : Config) (op d : Byte) (a : Word), op ≠ c.opRead → op ≠ c.opWrite →
    decode c .bus (frameBytes op a d) = .error .invalidFrame

/-! Register transport (40_transport.md). -/

/-- READ8(a): one read frame whose data is the device's answer, and nothing else changes (R92). -/
def Obligations.Read8IssuesOneReadFrame : Prop :=
  ∀ (a : Word) (s : State), ∃ (d : Byte) (t : State), exec (.read8 a) s = .next t ∧
    d = (s.device.read s.cfg a).1 ∧ t.opResult = .data (zeroExtend d) ∧ t.h = s.h ++ [.r8 a d] ∧
    t.bus.wire = s.bus.wire ++ [.acquire, .xchg s.cfg.opRead, .xchg (hiByte a), .xchg (loByte a), .xchg 0x00, .release] ∧
    t.bus.held = false ∧ t.device = (s.device.read s.cfg a).2 ∧ onlyBus s t

/-- WRITE8(a, d): one write frame carrying `d`, and nothing else changes (R93). What the device holds after it is the model's
choice: it gets `d`, in its soft reset too (log 34, log 36). -/
def Obligations.Write8IssuesOneWriteFrame : Prop :=
  ∀ (a : Word) (d : Byte) (s : State), ∃ t : State, exec (.write8 a d) s = .next t ∧
    t.opResult = .done ∧ t.h = s.h ++ [.w8 a d] ∧
    t.bus.wire = s.bus.wire ++ [.acquire, .xchg s.cfg.opWrite, .xchg (hiByte a), .xchg (loByte a), .xchg d, .release] ∧
    t.bus.held = false ∧ t.device = s.device.write s.cfg a d ∧ onlyBus s t

/-- READ16(a): READ8 at `a`, then, in the next step of an undisturbed engine, READ8 at `a + 1` mod 2^16, and the value
`hi * 256 + lo`; nothing else changes (R94; one frame a step: R15, log 12). -/
def Obligations.Read16IsTwoReadFrames : Prop :=
  ∀ (a : Word) (s : State), ∃ (hi : Byte) (t : State), exec (.read16 a) s = .next t ∧
    hi = (s.device.read s.cfg a).1 ∧ t.h = s.h ++ [.r8 a hi] ∧
    t.bus = ⟨false, s.bus.wire ++ frameActs [s.cfg.opRead, hiByte a, loByte a, 0x00]⟩ ∧
    t = { s with
      bus := t.bus, device := (s.device.read s.cfg a).2, h := t.h, pending := some (.read16Low (a + 1) hi) } ∧
    (s.free = true → ∃ (lo : Byte) (v : Word) (u : State), step t = .next u ∧
      lo = (t.device.read s.cfg (a + 1)).1 ∧ v.toNat = hi.toNat * 256 + lo.toNat ∧ u.opResult = .data v ∧
      u.h = s.h ++ [.r8 a hi, .r8 (a + 1) lo] ∧
      u.bus = ⟨false, t.bus.wire ++ frameActs [s.cfg.opRead, hiByte (a + 1), loByte (a + 1), 0x00]⟩ ∧
      u.device = (t.device.read s.cfg (a + 1)).2 ∧ onlyBus s.passTime u)

/-- WRITE16(a, v): WRITE8 of the high byte at `a`, then, in the next step of an undisturbed engine, WRITE8 of the low byte
at `a + 1` mod 2^16; nothing else changes (R95; one frame a step: R15, log 12; the device gets the bytes sent: log 34, log 36). -/
def Obligations.Write16IsTwoWriteFrames : Prop :=
  ∀ (a v : Word) (s : State), ∃ (hi lo : Byte) (t : State), exec (.write16 a v) s = .next t ∧
    v.toNat = hi.toNat * 256 + lo.toNat ∧ t.h = s.h ++ [.w8 a hi] ∧
    t.bus = ⟨false, s.bus.wire ++ frameActs [s.cfg.opWrite, hiByte a, loByte a, hi]⟩ ∧
    t = { s with
      bus := t.bus, device := s.device.write s.cfg a hi, h := t.h, pending := some (.write16Low (a + 1) lo) } ∧
    (s.free = true → ∃ u : State, step t = .next u ∧ u.opResult = .done ∧
      u.h = s.h ++ [.w8 a hi, .w8 (a + 1) lo] ∧
      u.bus = ⟨false, t.bus.wire ++ frameActs [s.cfg.opWrite, hiByte (a + 1), loByte (a + 1), lo]⟩ ∧
      u.device = t.device.write s.cfg (a + 1) lo ∧ onlyBus s.passTime u)

/-- Each named write is the WRITE8 of REGMAP's address and value, and nothing else changes (R78). That the device gets the byte
sent is the model's choice (log 34, log 36). -/
def Obligations.NamedWritesIssueTheirFrame : Prop :=
  ∀ (v : Byte) (s : State),
    ∀ x ∈ ([(.mrReset, s.cfg.regmap.aMr, s.cfg.regmap.mrRst), (.imrClear, s.cfg.regmap.aImr, 0x00),
      (.setMacraw, s0Mr s.cfg.regmap, s.cfg.regmap.smrMacraw), (.cmdOpen, s0Cr s.cfg.regmap, s.cfg.regmap.cmdOpen),
      (.cmdClose, s0Cr s.cfg.regmap, s.cfg.regmap.cmdClose), (.cmdRecv, s0Cr s.cfg.regmap, s.cfg.regmap.cmdRecv),
      (.cmdSend, s0Cr s.cfg.regmap, s.cfg.regmap.cmdSend), (.ackSendOk, s0Ir s.cfg.regmap, s.cfg.regmap.sirSendOk),
      (.ackRecv, s0Ir s.cfg.regmap, s.cfg.regmap.sirRecv), (.ackIr v, s.cfg.regmap.aIr, v)] : List (Instr × Word × Byte)),
    ∃ t : State, exec x.1 s = .next t ∧ t.opResult = .done ∧ t.h = s.h ++ [.w8 x.2.1 x.2.2] ∧
      t.device = s.device.write s.cfg x.2.1 x.2.2 ∧ onlyBus s t

/-- Each named read is the READ8 of REGMAP's address, answering the device's byte, and nothing else changes (R109,
R116, R117). -/
def Obligations.NamedReadsIssueTheirFrame : Prop :=
  ∀ s : State,
    ∀ x ∈ ([(.readSr, s0Sr s.cfg.regmap), (.readIr, s.cfg.regmap.aIr), (.readS0Ir, s0Ir s.cfg.regmap)] : List (Instr × Word)),
    ∃ t : State, exec x.1 s = .next t ∧ t.opResult = .data (zeroExtend (s.device.read s.cfg x.2).1) ∧
      t.h = s.h ++ [.r8 x.2 (s.device.read s.cfg x.2).1] ∧ t.device = (s.device.read s.cfg x.2).2 ∧ onlyBus s t

/-- Under the default configuration (log 2) the ten named write frames are the words of R78. -/
def Obligations.NamedWritesAreTheirFrameWords : Prop :=
  ∀ s : State, s.cfg = Config.default →
    (∀ x ∈ ([(.mrReset, 0x0000, 0x80, 0xF0000080), (.imrClear, 0x0016, 0x00, 0xF0001600), (.setMacraw, 0x0400, 0x04, 0xF0040004),
      (.cmdOpen, 0x0401, 0x01, 0xF0040101), (.cmdClose, 0x0401, 0x10, 0xF0040110), (.cmdRecv, 0x0401, 0x40, 0xF0040140),
      (.cmdSend, 0x0401, 0x20, 0xF0040120), (.ackSendOk, 0x0402, 0x10, 0xF0040210), (.ackRecv, 0x0402, 0x04, 0xF0040204)] :
      List (Instr × Word × Byte × BitVec 32)),
      exec x.1 s = exec (.write8 x.2.1 x.2.2.1) s ∧ frameWord s.cfg.opWrite x.2.1 x.2.2.1 = x.2.2.2) ∧
    ∀ v : Byte, exec (.ackIr v) s = exec (.write8 0x0015 v) s ∧
      (frameWord s.cfg.opWrite 0x0015 v).toNat = 0xF0001500 + v.toNat

/-! The device's contract (10_state.md R47 to R51, 20_memory.md). -/

/-- The device may answer any byte to any read (R51). -/
def Obligations.DeviceMayAnswerAnyByte : Prop :=
  ∀ (a : Word) (b : Byte) (s : State) (ts : List DeviceTurn), s.device.turns = answerTurn b :: ts →
    ∃ t : State, exec (.read8 a) s = .next t ∧ t.opResult = .data (zeroExtend b) ∧ t.h = s.h ++ [.r8 a b]

/-- Reading a register, an interrupt register among them, clears nothing the device holds (R48). -/
def Obligations.ReadingClearsNothing : Prop :=
  ∀ (a a' : Word) (s t : State), (∀ x ∈ s.device.turns.head?, x.changes = []) → exec (.read8 a) s = .next t →
    t.device.held s.cfg a' = s.device.held s.cfg a'

/-- A write to an interrupt register clears exactly the flags whose bits are 1 (R47). The model's reading, log 24: this holds
of every bit of the global register too, S0_INT among them, and no other register changes with it; log 36: the byte that
clears is the byte sent. -/
def Obligations.WriteOneClearsTheFlag : Prop :=
  ∀ (c : Config) (a : Word) (v old : Byte) (dev : Device),
    a = c.regmap.aIr ∨ a = s0Ir c.regmap → a ≠ c.regmap.aMr → dev.held c a = some old →
    (∃ new : Byte, (dev.take c a v).held c a = some new ∧
      ∀ i : Nat, i < 8 → new.getLsbD i = (old.getLsbD i && !v.getLsbD i)) ∧
    ∀ a' : Word, a' ≠ a → (dev.take c a v).held c a' = dev.held c a'

/-- A write frame that is no soft reset changes what the device holds at its own address alone; an ordinary register
or window byte then holds the byte written (R64). The model's choices: the device gets the byte sent, where R96 lets a
corrupted exchange store another (log 36), in its soft reset too (log 34); a command does no more inside its frame (log 28),
and a register the device owns keeps its byte (log 23). -/
def Obligations.WriteFrameTouchesOneAddress : Prop :=
  ∀ (a : Word) (d : Byte) (s t : State), ¬(a = s.cfg.regmap.aMr ∧ flagSet d s.cfg.regmap.mrRst = true) →
    exec (.write8 a d) s = .next t →
    (∀ a' : Word, a' ≠ a → t.device.held s.cfg a' = (s.device.takeTurn s.cfg).held s.cfg a') ∧
    (a ≠ s.cfg.regmap.aIr → a ≠ s0Ir s.cfg.regmap → deviceOwned s.cfg.regmap a = false →
      t.device.held s.cfg a = some d) ∧
    (a ≠ s.cfg.regmap.aIr → a ≠ s0Ir s.cfg.regmap → deviceOwned s.cfg.regmap a = true →
      t.device.held s.cfg a = (s.device.takeTurn s.cfg).held s.cfg a)

/-- MR_RESET puts every device register at its reset value (R32, R64, R173); the model's choice, log 2 and log 4: those
values, under the default configuration, are the W5100's, and the device gets the byte sent (log 36). -/
def Obligations.SoftResetRestoresTheDevice : Prop :=
  (∀ (s : State) (a : Word), flagSet s.cfg.regmap.mrRst s.cfg.regmap.mrRst = true →
    ∃ t : State, exec .mrReset s = .next t ∧ t.device.held s.cfg a = deviceResetByte s.cfg a.toNat) ∧
  ∀ x ∈ ([(0x0000, 0x00), (0x0015, 0x00), (0x0016, 0x00), (0x0017, 0x07), (0x0018, 0xD0), (0x0019, 0x08), (0x001A, 0x55),
    (0x001B, 0x55), (0x0400, 0x00), (0x0401, 0x00), (0x0402, 0x00), (0x0403, 0x00), (0x0420, 0x08), (0x0421, 0x00),
    (0x0422, 0x00), (0x0423, 0x00), (0x0424, 0x00), (0x0425, 0x00), (0x0426, 0x00), (0x0427, 0x00), (0x0428, 0x00),
    (0x0429, 0x00)] : List (Word × Byte)),
    deviceResetByte Config.default x.1.toNat = some x.2

/-! The ring engine (41_ring.md). -/

/-- PHYS is BASE plus the pointer's low bits, never leaves the window, and the upper bits of the pointer do not affect
it (R97); NEXT maps the window into itself (R103, which the spec derives from R97 and R98). -/
def Obligations.CursorsStayInTheWindow : Prop :=
  ∀ base mask p q a : Word, Config.validWindow base mask = true →
    (phys base mask p).toNat = base.toNat + p.toNat % (mask.toNat + 1) ∧
    (p &&& mask = q &&& mask → phys base mask p = phys base mask q) ∧
    inWindow base mask (phys base mask p) = true ∧
    (inWindow base mask a = true → inWindow base mask (nextCursor base mask a) = true)

/-- The visit sequence: byte `i` from cursor `c` is at `BASE + ((c - BASE + i) mod (MASK + 1))` (R99,
which the spec derives from R98). -/
def Obligations.VisitSequence : Prop :=
  ∀ (base mask c : Word) (i : Nat), Config.validWindow base mask = true → inWindow base mask c = true →
    ((nextCursor base mask)^[i] c).toNat = base.toNat + (c.toNat - base.toNat + i) % (mask.toNat + 1)

/-- The physical sequence does not depend on the logical pointer's own wrap at 2^16 (R104, which the spec derives
from R97 and R99). -/
def Obligations.LogicalWrapIsIndependent : Prop :=
  ∀ (base mask p : Word) (k : Nat), Config.validWindow base mask = true →
    phys base mask (p + BitVec.ofNat 16 k) = ringAddr base mask p k ∧
    phys base mask (p + BitVec.ofNat 16 k) = (nextCursor base mask)^[k] (phys base mask p)

/-- COPY_IN: the bytes the device answers to one read frame each, at the ring's addresses in order, are in FB[0] upward;
every other byte of FB and every other register is as before. Its first turn is the meaning's own step, with the first of
these frames, and the undisturbed engine comes to the end of the loop (R100; one frame a step: R15, log 12). -/
def Obligations.CopyInReadsTheRing : Prop :=
  ∀ (s : State) (p n : Word), s.free = true → s.cfg.valid = true → s.rx.rcur = some p → s.rx.size = some n → n ≤ s.cfg.cap →
    ∃ (bs : List Byte) (t u : State), exec .copyIn s = .next t ∧ t.reaches u ∧
      bs = s.device.answers s.cfg (ringAddrs s.cfg.rxBase s.cfg.rxMask p n.toNat) ∧
      t.h = s.h ++ (ringReads s.cfg.rxBase s.cfg.rxMask p 0 bs).take 1 ∧
      u.h = s.h ++ ringReads s.cfg.rxBase s.cfg.rxMask p 0 bs ∧ u.fbHolds bs ∧
      (∀ i, n.toNat ≤ i → u.readFb i = s.readFb i) ∧ u.host <:+ s.host ∧
      u = { s with
        bus := u.bus, h := u.h, fb := u.fb, host := u.host, opResult := .done,
        device := s.device.afterFrames s.cfg (ringReads s.cfg.rxBase s.cfg.rxMask p 0 bs),
        rx := { s.rx with rpa := some (ringAddr s.cfg.rxBase s.cfg.rxMask p n.toNat), ri := some n } }

/-- COPY_OUT: FB[0] upward is written to the ring in order, one frame each; FB and every other register are as before.
Its first turn is the meaning's own step, with the first of these frames, and the undisturbed engine comes to the end of
the loop (R101; one frame a step: R15, log 12). That the device gets the bytes sent is the model's choice (log 34, log 36). -/
def Obligations.CopyOutWritesTheRing : Prop :=
  ∀ (s : State) (p n : Word) (bs : List Byte), s.free = true → s.cfg.valid = true → s.tx.wr0 = some p → s.tx.tlen = some n →
    n ≤ s.cfg.cap → bs.length = n.toNat → s.fbHolds bs →
    ∃ t u : State, exec .copyOut s = .next t ∧ t.reaches u ∧
      t.h = s.h ++ (ringWrites s.cfg.txBase s.cfg.txMask p 0 bs).take 1 ∧
      u.h = s.h ++ ringWrites s.cfg.txBase s.cfg.txMask p 0 bs ∧ u.host <:+ s.host ∧
      u = { s with
        bus := u.bus, h := u.h, host := u.host, opResult := .done,
        device := s.device.afterFrames s.cfg (ringWrites s.cfg.txBase s.cfg.txMask p 0 bs),
        tx := { s.tx with tpa := some (ringAddr s.cfg.txBase s.cfg.txMask p n.toNat), ti := some n } }

/-- COPY_OUT stops before the frame of the first byte it cannot read: FB[CAP] raises FrameBufferBounds, an unwritten
byte UnwrittenRead; the frames before it stay in H and the frame buffer is as before (R57, R101, R153). -/
def Obligations.CopyOutStopsAtTheMissingByte : Prop :=
  ∀ (s : State) (p n : Word) (bs : List Byte), s.free = true → s.cfg.valid = true → s.tx.wr0 = some p → s.tx.tlen = some n →
    bs.length < n.toNat → bs.length ≤ s.cfg.cap.toNat → s.fbHolds bs →
    bs.length = s.cfg.cap.toNat ∨ s.readFb bs.length = none →
    ∃ t u : State, exec .copyOut s = .next t ∧ t.reaches u ∧ u.h = s.h ++ ringWrites s.cfg.txBase s.cfg.txMask p 0 bs ∧
      u.fault = some (if bs.length = s.cfg.cap.toNat then .frameBufferBounds else .unwrittenRead) ∧
      u.fb = s.fb ∧ u.len = s.len ∧ u.act = s.act ∧ u.pc = s.pc

/-- Reading an unwritten register or LEN raises UnwrittenRead and changes nothing else: the operands of the copies, LEN at
TRANSMIT and, by the model's choice of log 21, at DISPATCH, every register a sequencer line reads, and the registers of a
copy under way (R24, R27). -/
def Obligations.UnwrittenReadRaises : Prop :=
  ∀ s : State,
    (s.rx.rcur = none ∨ s.rx.size = none → exec .copyIn s = .next { s with fault := some .unwrittenRead }) ∧
    (s.tx.wr0 = none ∨ s.tx.tlen = none → exec .copyOut s = .next { s with fault := some .unwrittenRead }) ∧
    (s.len = none → exec .dispatch s = .next { s with fault := some .unwrittenRead }) ∧
    (s.len = none → s.act = .idle ∨ s.act = .inDispatch → s.mode = .rawActive →
      exec .transmit s = .next { s with fault := some .unwrittenRead }) ∧
    (∀ l : Label, s.restsAt l = true → l.reads s = false →
      step s = .next { s.passTime with fault := some .unwrittenRead }) ∧
    (s.undisturbed = true → s.pending = some .copyIn → s.rx.size = none ∨ s.rx.rpa = none ∨ s.rx.ri = none →
      step s = .next { s.passTime with pending := none, fault := some .unwrittenRead }) ∧
    (s.undisturbed = true → s.pending = some .copyOut → s.tx.tlen = none ∨ s.tx.tpa = none ∨ s.tx.ti = none →
      step s = .next { s.passTime with pending := none, fault := some .unwrittenRead })

/-! Requests and admission (60_exceptions.md R154). -/

/-- A request that cannot be admitted, a reserved code among them, sets the refusal mark and changes nothing else
(R87, R154). -/
def Obligations.InadmissibleRequestsAreRefused : Prop :=
  ∀ s : State,
    (s.act ≠ .idle → exec .init s = .next { s with refused := some .reentered } ∧
      exec .pollOnce s = .next { s with refused := some .reentered }) ∧
    (s.act ≠ .idle → s.act ≠ .inDispatch → exec .transmit s = .next { s with refused := some .reentered }) ∧
    (s.act = .idle → s.mode = .rawActive → exec .init s = .next { s with refused := some .alreadyInitialised }) ∧
    (s.act = .idle → s.mode ≠ .rawActive → exec .pollOnce s = .next { s with refused := some .notInitialised }) ∧
    (s.act = .idle ∨ s.act = .inDispatch → s.mode ≠ .rawActive →
      exec .transmit s = .next { s with refused := some .notInitialised }) ∧
    (∀ code, exec (.reservedRequest code) s = .next { s with refused := some .reservedRequest }) ∧
    (∀ code, code ≠ 0x01 → code ≠ 0x02 → code ≠ 0x03 → decodeRequest code = .reservedRequest code)

/-- An admitted request enters its first line on a level of its own: INIT at I1 and POLL_ONCE at P1 with their banks
unwritten, TRANSMIT at T1 with LEN latched, from the host or from inside the callout; nothing else changes (R24,
R107, R115, R134). -/
def Obligations.RequestsAreAdmitted : Prop :=
  ∀ s : State,
    (s.act = .idle → s.mode ≠ .rawActive →
      exec .init s = .next { s with
        act := .inInit, pc := .i1 :: s.pc, opResult := .empty, initBank := ⟨none, none⟩ }) ∧
    (s.act = .idle → s.mode = .rawActive →
      exec .pollOnce s = .next { s with
        act := .inPoll, pc := .p1 :: s.pc, opResult := .empty, poll := ⟨none, none⟩,
        rx := ⟨none, none, none, none, none, none, none⟩ }) ∧
    (∀ n : Word, s.act = .idle ∨ s.act = .inDispatch → s.mode = .rawActive → s.len = some n →
      exec .transmit s = .next { s with
        act := if s.act = .idle then Act.inTransmit else Act.inNestedTransmit,
        pc := .t1 :: s.pc, opResult := .empty, tx := ⟨some n, none, none, none, none, none⟩ })

/-- RECEIVE_DRAIN goes on at D1, at the level it is issued from; nothing else changes (R125). -/
def Obligations.ReceiveDrainIsEntered : Prop :=
  ∀ s : State, exec .receiveDrain s = .next { s with pc := .d1 :: s.pc.tail, opResult := .empty }

/-- DISPATCH: the callout event carries LEN and FB[0..LEN-1], and the engine waits inside the callout; the frame
buffer and every register are as before (R144). -/
def Obligations.DispatchCallsOut : Prop :=
  ∀ (s : State) (n : Word) (bs : List Byte), s.len = some n → n ≤ s.cfg.cap → bs.length = n.toNat → s.fbHolds bs →
    exec .dispatch s = .next { s with
      h := s.h ++ [.dispatch n bs], act := .inDispatch, pc := .dispatch :: s.pc, opResult := .empty }

/-! INIT's lines (42_init.md). -/

/-- I1 and I2: the soft reset, then the mask, then ModeNegotiation with no iteration counted yet (R107, R108, R113). -/
def Obligations.SoftResetThenMask : Prop :=
  ∀ s : State, s.restsAt .i1 = true →
    ∃ t : State, s.reaches t ∧
      t.h = s.h ++ [.w8 s.cfg.regmap.aMr s.cfg.regmap.mrRst, .w8 s.cfg.regmap.aImr 0x00] ∧
      t.mode = .modeNegotiation ∧ t.initBank.nneg = some 0 ∧ t.restsAt .i3 = true

/-- I4 to I6: raw-frame mode, OPEN, and the status read, in that order at every iteration, x[st] the byte the device
answers (R109). -/
def Obligations.NegotiationIteration : Prop :=
  ∀ s : State, s.restsAt .i4 = true →
    ∃ (st : Byte) (t : State), s.reaches t ∧
      st = ((s.device.afterFrames s.cfg [.w8 (s0Mr s.cfg.regmap) s.cfg.regmap.smrMacraw,
        .w8 (s0Cr s.cfg.regmap) s.cfg.regmap.cmdOpen]).read s.cfg (s0Sr s.cfg.regmap)).1 ∧
      t.h = s.h ++ [.w8 (s0Mr s.cfg.regmap) s.cfg.regmap.smrMacraw, .w8 (s0Cr s.cfg.regmap) s.cfg.regmap.cmdOpen,
        .r8 (s0Sr s.cfg.regmap) st] ∧
      t.initBank.st = some st ∧ t.mode = s.mode ∧ t.restsAt .i7 = true

/-- I7 and I8: the raw-frame code ends INIT in RawActive with no further frame (R107, R110; the result port is log 16); any
other status issues CLOSE and goes on at I3 (R111). -/
def Obligations.StatusDecidesNegotiation : Prop :=
  ∀ (s : State) (st : Byte), s.restsAt .i7 = true → s.initBank.st = some st →
    (st = s.cfg.regmap.ssrMacraw → s.act = .inInit →
      ∃ t : State, step s = .next t ∧ t.mode = .rawActive ∧ t.act = .idle ∧ t.pc = s.pc.tail ∧
        t.h = s.h ++ [.ret .done] ∧ t.hostResult = some .done) ∧
    (st ≠ s.cfg.regmap.ssrMacraw →
      ∃ t : State, s.reaches t ∧
        t.h = s.h ++ [.w8 (s0Cr s.cfg.regmap) s.cfg.regmap.cmdClose] ∧ t.mode = s.mode ∧ t.restsAt .i3 = true)

/-- I3: a finite bound reached ends INIT with NegotiationTimeout and the mode as it is; otherwise one more iteration
begins (R107, R112; the result port is log 16). -/
def Obligations.NegotiationBound : Prop :=
  ∀ (s : State) (n : Nat), s.restsAt .i3 = true → s.initBank.nneg = some n →
    (s.cfg.negBound = some n → s.act = .inInit →
      ∃ t : State, step s = .next t ∧ t.act = .idle ∧ t.mode = s.mode ∧ t.h = s.h ++ [.ret .negotiationTimeout] ∧
        t.hostResult = some .negotiationTimeout ∧ t.fault = none) ∧
    (s.cfg.negBound ≠ some n →
      ∃ t : State, step s = .next t ∧ t.initBank.nneg = some (n + 1) ∧ t.h = s.h ∧ t.restsAt .i4 = true)

/-- With `N` statuses that are not raw and then the raw code, and no bound or one above `N`, INIT issues `N + 1` OPENs and
`N` CLOSEs, `4N + 5` bus frames in all, and ends in RawActive (R112, and R114, which the spec derives from R107 to R111). -/
def Obligations.NegotiationCounts : Prop :=
  ∀ (s : State) (sts : List Byte) (t1 t2 : DeviceTurn) (ts : List DeviceTurn), s.runsNext .init = true → s.act = .idle →
    s.mode ≠ .rawActive → (∀ b, s.cfg.negBound = some b → sts.length < b) → (∀ st ∈ sts, st ≠ s.cfg.regmap.ssrMacraw) →
    s.device.turns = t1 :: t2 :: ts → statusAnswers s.cfg.regmap sts ts = true →
    ∃ t : State, s.reaches t ∧ t.mode = .rawActive ∧ t.act = .idle ∧
      t.pc = s.pc ∧ t.h = s.h ++ negotiation s.cfg.regmap sts ++ [.ret .done] ∧
      (negotiation s.cfg.regmap sts).length = 4 * sts.length + 5

/-! POLL_ONCE's lines (43_poll.md). -/

/-- P1: a zero global register ends the poll after one read frame and no write (R115, R116; the result port
is log 16). -/
def Obligations.PollFastPath : Prop :=
  ∀ s : State, s.restsAt .p1 = true → s.act = .inPoll → (s.device.read s.cfg s.cfg.regmap.aIr).1 = 0x00 →
    ∃ t : State, s.reaches t ∧ t.act = .idle ∧ t.pc = s.pc.tail ∧
      t.h = s.h ++ [.r8 s.cfg.regmap.aIr 0x00, .ret .done] ∧ t.hostResult = some .done

/-- P1 and P2 without the channel-0 bit: the read and the write-back of the snapshot, nothing else (R123, which
the spec derives from R116, R117 and R120). -/
def Obligations.AlarmOnlyPoll : Prop :=
  ∀ (s : State) (v : Byte), s.restsAt .p1 = true → s.act = .inPoll → (s.device.read s.cfg s.cfg.regmap.aIr).1 = v →
    v ≠ 0x00 → flagSet v s.cfg.regmap.irS0 = false →
    ∃ t : State, s.reaches t ∧ t.act = .idle ∧ t.pc = s.pc.tail ∧
      t.h = s.h ++ [.r8 s.cfg.regmap.aIr v, .w8 s.cfg.regmap.aIr v, .ret .done]

/-- P1 and P2: a non-zero global register is x[ir], and P2 follows; there the channel register is read exactly when the
snapshot's channel-0 bit is set, x[sir] the byte the device answers (R115, R117). -/
def Obligations.ChannelReadIffBitSet : Prop :=
  ∀ (s : State) (v : Byte),
    (s.restsAt .p1 = true → (s.device.read s.cfg s.cfg.regmap.aIr).1 = v → v ≠ 0x00 →
      ∃ t : State, s.reaches t ∧ t.h = s.h ++ [.r8 s.cfg.regmap.aIr v] ∧
        t.poll = { s.poll with ir := some v } ∧ t.act = s.act ∧ t.restsAt .p2 = true) ∧
    (s.restsAt .p2 = true → s.poll.ir = some v → flagSet v s.cfg.regmap.irS0 = true →
      ∃ (d : Byte) (t : State), s.reaches t ∧ d = (s.device.read s.cfg (s0Ir s.cfg.regmap)).1 ∧
        t.h = s.h ++ [.r8 (s0Ir s.cfg.regmap) d] ∧ t.poll = ⟨some v, some d⟩ ∧ t.restsAt .p3 = true) ∧
    (s.restsAt .p2 = true → s.poll.ir = some v → flagSet v s.cfg.regmap.irS0 = false →
      ∃ t : State, step s = .next t ∧ t.h = s.h ∧ t.poll = s.poll ∧ t.restsAt .p5 = true)

/-- P3: send-complete is acknowledged with its own bit alone, exactly when the snapshot has it (R118). -/
def Obligations.SendCompleteIsAcknowledged : Prop :=
  ∀ (s : State) (v : Byte), s.restsAt .p3 = true → s.poll.sir = some v →
    (flagSet v s.cfg.regmap.sirSendOk = true →
      ∃ t : State, s.reaches t ∧ t.h = s.h ++ [.w8 (s0Ir s.cfg.regmap) s.cfg.regmap.sirSendOk] ∧
        t.poll = s.poll ∧ t.restsAt .p4 = true) ∧
    (flagSet v s.cfg.regmap.sirSendOk = false →
      ∃ t : State, step s = .next t ∧ t.h = s.h ∧ t.poll = s.poll ∧ t.restsAt .p4 = true)

/-- P4 and P5: receive-ready starts one RECEIVE_DRAIN (R119); the write-back carries the step-1 snapshot and ends the
poll (R120). -/
def Obligations.ReceiveServiceAndWriteBack : Prop :=
  ∀ (s : State) (v : Byte),
    (s.restsAt .p4 = true → s.poll.sir = some v → flagSet v s.cfg.regmap.sirRecv = true →
      ∃ t : State, s.reaches t ∧ t.h = s.h ∧ t.restsAt .d1 = true) ∧
    (s.restsAt .p4 = true → s.poll.sir = some v → flagSet v s.cfg.regmap.sirRecv = false →
      ∃ t : State, step s = .next t ∧ t.h = s.h ∧ t.restsAt .p5 = true) ∧
    (s.restsAt .p5 = true → s.poll.ir = some v → s.act = .inPoll →
      ∃ t : State, s.reaches t ∧ t.h = s.h ++ [.w8 s.cfg.regmap.aIr v, .ret .done] ∧
        t.act = .idle ∧ t.pc = s.pc.tail)

/-! RECEIVE_DRAIN's lines (44_receive.md). -/

/-- D1 and D2: the size is the received size less the header, the cursor the read pointer past it, mod 2^16, each as the
device answers (R126, R128). -/
def Obligations.FrameSizeAndCursor : Prop :=
  ∀ s : State, s.restsAt .d1 = true →
    ∃ (hi lo rhi rlo : Byte) (t : State), s.reaches t ∧
      [hi, lo, rhi, rlo] = s.device.answers s.cfg [s0RxRsr s.cfg.regmap, nextAddr (s0RxRsr s.cfg.regmap),
        s0RxRd s.cfg.regmap, nextAddr (s0RxRd s.cfg.regmap)] ∧
      t.h = s.h ++ read16Events (s0RxRsr s.cfg.regmap) hi lo ++ read16Events (s0RxRd s.cfg.regmap) rhi rlo ∧
      t.rx.rsr = some (concatBytes hi lo) ∧ t.rx.size = some (concatBytes hi lo - s.cfg.rxHdr) ∧
      t.rx.rd0 = some (concatBytes rhi rlo) ∧ t.rx.rcur = some (concatBytes rhi rlo + s.cfg.rxHdr) ∧
      t.restsAt .d3 = true

/-- An oversized frame: no window byte is read, FB and LEN are as before, nothing is dispatched, and the pointer commit
past header and payload, RECV and one acknowledgement still happen (R129, R130, R179). -/
def Obligations.OversizedFrameIsDropped : Prop :=
  ∀ s : State, s.restsAt .d1 = true → s.cfg.cap < s.device.wordAnswer s.cfg (s0RxRsr s.cfg.regmap) - s.cfg.rxHdr →
    ∃ (hi lo rhi rlo : Byte) (t : State), s.reaches t ∧
      [hi, lo, rhi, rlo] = s.device.answers s.cfg [s0RxRsr s.cfg.regmap, nextAddr (s0RxRsr s.cfg.regmap),
        s0RxRd s.cfg.regmap, nextAddr (s0RxRd s.cfg.regmap)] ∧
      t.h = s.h ++ read16Events (s0RxRsr s.cfg.regmap) hi lo ++ read16Events (s0RxRd s.cfg.regmap) rhi rlo ++
        write16Events (s0RxRd s.cfg.regmap) (concatBytes rhi rlo + concatBytes hi lo) ++
        [.w8 (s0Cr s.cfg.regmap) s.cfg.regmap.cmdRecv, .w8 (s0Ir s.cfg.regmap) s.cfg.regmap.sirRecv] ∧
      t.fb = s.fb ∧ t.len = s.len ∧ t.restsAt .p5 = true

/-- A frame that fits: its bytes are copied, the pointer committed, RECV issued, and only then is Frame Dispatch called
with LEN the size and FB the frame (R125, R127, R132, R180). -/
def Obligations.FrameIsDrainedThenDispatched : Prop :=
  ∀ (s : State) (n : Word), s.restsAt .d1 = true → s.cfg.valid = true →
    n = s.device.wordAnswer s.cfg (s0RxRsr s.cfg.regmap) - s.cfg.rxHdr → n ≤ s.cfg.cap →
    ∃ (hi lo rhi rlo : Byte) (bs : List Byte) (t : State),
      s.reaches t ∧
      hi :: lo :: rhi :: rlo :: bs = s.device.answers s.cfg ([s0RxRsr s.cfg.regmap, nextAddr (s0RxRsr s.cfg.regmap),
        s0RxRd s.cfg.regmap, nextAddr (s0RxRd s.cfg.regmap)] ++
        ringAddrs s.cfg.rxBase s.cfg.rxMask (concatBytes rhi rlo + s.cfg.rxHdr) n.toNat) ∧
      t.h = s.h ++ read16Events (s0RxRsr s.cfg.regmap) hi lo ++ read16Events (s0RxRd s.cfg.regmap) rhi rlo ++
        ringReads s.cfg.rxBase s.cfg.rxMask (concatBytes rhi rlo + s.cfg.rxHdr) 0 bs ++
        write16Events (s0RxRd s.cfg.regmap) (concatBytes rhi rlo + concatBytes hi lo) ++
        [.w8 (s0Cr s.cfg.regmap) s.cfg.regmap.cmdRecv] ++
        (if s.cfg.recvAckPoint = .beforeDispatch then [.w8 (s0Ir s.cfg.regmap) s.cfg.regmap.sirRecv] else []) ++
        [.dispatch n bs] ∧
      t.len = some n ∧ t.fbHolds bs ∧ (∀ i, n.toNat ≤ i → t.readFb i = s.readFb i) ∧
      t.act = .inDispatch ∧ t.pc = .dispatch :: .d8 :: s.pc.tail

/-- D7 and D9: the acknowledgement of receive-ready is issued at the configured point and not at the other (R127). -/
def Obligations.ReceiveReadyAcknowledgedAtOnePoint : Prop :=
  ∀ s : State,
    (s.restsAt .d7 = true → s.cfg.recvAckPoint = .beforeDispatch →
      ∃ t : State, s.reaches t ∧ t.h = s.h ++ [.w8 (s0Ir s.cfg.regmap) s.cfg.regmap.sirRecv] ∧
        t.restsAt .d8 = true) ∧
    (s.restsAt .d7 = true → s.cfg.recvAckPoint = .afterDispatch →
      ∃ t : State, step s = .next t ∧ t.h = s.h ∧ t.restsAt .d8 = true) ∧
    (s.restsAt .d9 = true → s.cfg.recvAckPoint = .afterDispatch →
      ∃ t : State, s.reaches t ∧ t.h = s.h ++ [.w8 (s0Ir s.cfg.regmap) s.cfg.regmap.sirRecv] ∧
        t.restsAt .p5 = true) ∧
    (s.restsAt .d9 = true → s.cfg.recvAckPoint = .beforeDispatch →
      ∃ t : State, step s = .next t ∧ t.h = s.h ∧ t.restsAt .p5 = true)

/-! Frame Dispatch and the host (46_dispatch_host.md). -/

/-- Inside the callout Frame Dispatch may write FB and LEN and issue TRANSMIT; INIT and POLL_ONCE are refused (R145). A write
outside FB stops by name, the model's choice of log 22. -/
def Obligations.FrameDispatchLiberties : Prop :=
  ∀ (s : State) (ms : List DispatchMove), s.restsAt .dispatch = true → s.act = .inDispatch → s.mode = .rawActive →
    (∀ (i : Word) (b : Byte), s.dispatch = .writeFb i b :: ms → i < s.cfg.cap →
      ∃ t : State, step s = .next t ∧ t.readFb i.toNat = some b ∧ (∀ j, j ≠ i.toNat → t.readFb j = s.readFb j) ∧
        t.len = s.len ∧ t.dispatch = ms ∧ t.h = s.h) ∧
    (∀ (i : Word) (b : Byte), s.dispatch = .writeFb i b :: ms → s.cfg.cap ≤ i → step s = .fault .noSuchByte) ∧
    (∀ v : Word, s.dispatch = .writeLen v :: ms →
      ∃ t : State, step s = .next t ∧ t.len = some v ∧ t.fb = s.fb ∧ t.dispatch = ms ∧ t.h = s.h) ∧
    (∀ n : Word, s.dispatch = .request 0x03 :: ms → s.len = some n →
      ∃ t : State, s.reaches t ∧ t.act = .inNestedTransmit ∧ t.pc = .t1 :: s.pc ∧
        t.tx.tlen = some n ∧ t.dispatch = ms ∧ t.h = s.h) ∧
    (∀ code : Byte, code = 0x01 ∨ code = 0x02 → s.dispatch = .request code :: ms →
      ∃ t : State, s.reaches t ∧ t.refused = some .reentered ∧ t.h = s.h)

/-- A Frame Dispatch that has not returned holds the engine inside the callout (R146, R155); when it returns,
RECEIVE_DRAIN goes on at D9 with no frame issued (R132, R144). -/
def Obligations.CalloutWaitsAndReturns : Prop :=
  (∀ s : State, s.restsAt .dispatch = true → s.dispatch = [] → ∀ k : Nat,
    ∃ ms, ms <:+ s.host ∧ run k s = .next { s with host := ms }) ∧
  ∀ (s : State) (n : Word) (rest : List Label) (ms : List DispatchMove), s.restsAt .dispatch = true →
    s.pc = .dispatch :: .d8 :: rest → s.dispatch = .ret :: ms → s.rx.drop = some false → s.rx.size = some n →
    ∃ t : State, s.reaches t ∧ t.act = .inPoll ∧ t.pc = .d9 :: rest ∧ t.restsAt .d9 = true ∧
      t.h = s.h ∧ t.fb = s.fb ∧ t.len = s.len ∧ t.dispatch = ms

/-- Between requests the host writes FB and LEN freely and presents request codes (R148); a request presented at once is
taken up by the very next step, whatever the engine is doing, and refused while another runs, but for TRANSMIT inside the
callout (R154). The model's choices: the list of moves (log 8), and the stop at a write outside FB (log 22). -/
def Obligations.HostMovesAreTaken : Prop :=
  (∀ (s : State) (ms : List HostMove), s.running = true → s.op = none → s.pending = none → s.pc = [] →
    (∀ (i : Word) (b : Byte), s.host = .writeFb i b :: ms → i < s.cfg.cap →
      ∃ t : State, step s = .next t ∧ t.readFb i.toNat = some b ∧ (∀ j, j ≠ i.toNat → t.readFb j = s.readFb j) ∧
        t.len = s.len ∧ t.h = s.h) ∧
    (∀ (i : Word) (b : Byte), s.host = .writeFb i b :: ms → s.cfg.cap ≤ i → step s = .fault .noSuchByte) ∧
    (∀ v : Word, s.host = .writeLen v :: ms →
      ∃ t : State, step s = .next t ∧ t.len = some v ∧ t.fb = s.fb ∧ t.h = s.h) ∧
    (∀ code : Byte, s.host = .request code :: ms →
      step s = .next { s with host := ms, op := some (decodeRequest code) })) ∧
  ∀ (s : State) (ms : List HostMove) (code : Byte), s.running = true → s.host = .requestNow code :: ms →
    step s = exec (decodeRequest code) { s with host := ms } ∧
    (s.act ≠ .idle → code = 0x01 ∨ code = 0x02 ∨ (code = 0x03 ∧ s.act ≠ .inDispatch) →
      step s = .next { s with host := ms, refused := some .reentered })

/-- A nested TRANSMIT leaves the POLL, RX and INIT banks alone (R24, R150). -/
def Obligations.NestedTransmitKeepsTheBanks : Prop :=
  ∀ s t : State, s.controlFits = true → s.running = true → s.act = .inNestedTransmit → step s = .next t →
    t.poll = s.poll ∧ t.rx = s.rx ∧ t.initBank = s.initBank

/-! TRANSMIT's lines (45_transmit.md). -/

/-- T1: a frame larger than the window is reported TooLarge with no bus frame, FB and LEN as before; a whole window is
accepted (R134, R135, R150; the result ports are log 16, a nested TRANSMIT of the host's own log 37). -/
def Obligations.OversizedTransmitIsAborted : Prop :=
  ∀ (s : State) (n : Word), s.restsAt .t1 = true → s.tx.tlen = some n →
    (s.cfg.txMask.toNat + 1 < n.toNat →
      ∃ t : State, step s = .next t ∧ t.h = s.h ++ [.ret .tooLarge] ∧ t.fb = s.fb ∧ t.len = s.len ∧
        (s.act = .inNestedTransmit → t.dispatchResult = some .tooLarge) ∧
        (s.act ≠ .inNestedTransmit → t.hostResult = some .tooLarge) ∧ t.act = s.act.restored ∧ t.pc = s.pc.tail) ∧
    (n.toNat ≤ s.cfg.txMask.toNat + 1 →
      ∃ t : State, s.reaches t ∧ t.h = s.h ∧ t.tx.nfsr = some 0 ∧ t.tx.tlen = some n ∧
        t.restsAt .t3 = true)

/-- T3: one READ16 of the free size, x[fsr] the word the device answers, again while it is below the length; a finite bound
reached ends the request with TxSpaceTimeout, to Frame Dispatch for a nested TRANSMIT and to the host otherwise (result
ports: log 16; the host's own inside the callout: log 37), and nothing written (R136, R150, R156). -/
def Obligations.FreeSpaceWait : Prop :=
  ∀ (s : State) (n : Word) (k : Nat), s.restsAt .t3 = true → s.tx.tlen = some n → s.tx.nfsr = some k →
    (s.cfg.fsrBound = some k →
      ∃ t : State, step s = .next t ∧ t.h = s.h ++ [.ret .txSpaceTimeout] ∧ t.act = s.act.restored ∧ t.pc = s.pc.tail ∧
        (s.act = .inNestedTransmit → t.dispatchResult = some .txSpaceTimeout ∧ t.hostResult = s.hostResult) ∧
        (s.act ≠ .inNestedTransmit → t.hostResult = some .txSpaceTimeout ∧ t.dispatchResult = s.dispatchResult) ∧
        t.fb = s.fb ∧ t.len = s.len) ∧
    (s.cfg.fsrBound ≠ some k →
      ∃ (hi lo : Byte) (t : State), s.reaches t ∧ s.device.polls s.cfg (s0TxFsr s.cfg.regmap) 1 = [(hi, lo)] ∧
        t.h = s.h ++ read16Events (s0TxFsr s.cfg.regmap) hi lo ∧ t.tx.fsr = some (concatBytes hi lo) ∧
        t.tx.nfsr = some (k + 1) ∧ t.tx.tlen = some n ∧
        t.restsAt (if concatBytes hi lo < n then .t3 else .t4) = true)

/-- TRANSMIT, from idle or inside the callout, with the free size below the length at
any number of reads under the bound and then not: those READ16 of the free size, the write-pointer read, the data in ring
order, the pointer commit, SEND, and Sent, from idle to the host and inside the callout to Frame Dispatch, whoever presented
it there (result ports: log 16, log 37); FB and LEN as before (R134, R136 to
R141, R150, R181). -/
def Obligations.TransmitSendsTheFrame : Prop :=
  ∀ (s : State) (n : Word) (bs : List Byte) (below : List (Byte × Byte)) (last : Byte × Byte),
    s.runsNext .transmit = true → s.act = .idle ∨ s.act = .inDispatch → s.mode = .rawActive → s.cfg.valid = true →
    s.len = some n → n ≤ s.cfg.cap → n.toNat ≤ s.cfg.txMask.toNat + 1 → bs.length = n.toNat → s.fbHolds bs →
    s.device.polls s.cfg (s0TxFsr s.cfg.regmap) (below.length + 1) = below ++ [last] →
    (∀ x ∈ below, concatBytes x.1 x.2 < n) → n ≤ concatBytes last.1 last.2 →
    (∀ b, s.cfg.fsrBound = some b → below.length < b) →
    ∃ (whi wlo : Byte) (t : State), s.reaches t ∧
      [whi, wlo] = (s.device.afterFrames s.cfg
        ((below ++ [last]).flatMap fun x => read16Events (s0TxFsr s.cfg.regmap) x.1 x.2)).answers s.cfg
        [s0TxWr s.cfg.regmap, nextAddr (s0TxWr s.cfg.regmap)] ∧
      t.h = s.h ++ ((below ++ [last]).flatMap fun x => read16Events (s0TxFsr s.cfg.regmap) x.1 x.2) ++
        read16Events (s0TxWr s.cfg.regmap) whi wlo ++
        ringWrites s.cfg.txBase s.cfg.txMask (concatBytes whi wlo) 0 bs ++
        write16Events (s0TxWr s.cfg.regmap) (concatBytes whi wlo + n) ++
        [.w8 (s0Cr s.cfg.regmap) s.cfg.regmap.cmdSend, .ret .sent] ∧
      t.act = s.act ∧ t.pc = s.pc ∧ t.fb = s.fb ∧ t.len = s.len ∧ t.fault = none ∧
      (s.act = .idle → t.hostResult = some .sent) ∧ (s.act = .inDispatch → t.dispatchResult = some .sent)

/-! The machine as a whole. -/

/-- A running engine with no request presented at once takes up the rest of the operation under way, else runs the issued
operation, else the next agent moves (order and latches: log 6, log 12); a table word the host's probe placed is run by
that step (log 7). -/
def Obligations.StepRunsTheIssuedOperation : Prop :=
  ∀ s : State, s.running = true → s.presentedNow = none →
    (∀ r : Pending, s.pending = some r → step s = resume r { s.passTime with pending := none }) ∧
    (∀ i : Instr, s.pending = none → s.op = some i → step s = exec i { s.passTime with op := none }) ∧
    (s.pending = none → s.op = none → step s = advance s) ∧
    (∀ (nbits w : Nat) (i : Instr), decodeTableWord nbits w = some i →
      step (s.withFetchWord nbits w) = exec i { s.passTime with op := none, pending := none })

/-- A marked engine takes no further step (R28, R153, R154). -/
def Obligations.MarksStopTheEngine : Prop :=
  ∀ s : State, s.resetAsserted = false →
    (∀ r, s.fault = some r → step s = .fault (.raised r)) ∧
    (∀ r, s.fault = none → s.refused = some r → step s = .refused (.requestRefused r))

/-- The engine's reset, whatever the engine is doing: every engine state at its reset value, no bus frame, the device
and the configuration as they are, H empty (R171, R172). -/
def Obligations.EngineReset : Prop :=
  ∀ (s : State) (ms : List HostMove), s.host = .reset :: ms →
    ∃ t : State, step s = .next t ∧ t.mode = .reset ∧ t.act = .idle ∧ t.pc = [] ∧
      t.initBank = ⟨none, none⟩ ∧ t.poll = ⟨none, none⟩ ∧ t.rx = ⟨none, none, none, none, none, none, none⟩ ∧
      t.tx = ⟨none, none, none, none, none, none⟩ ∧ (∀ i, t.readFb i = none) ∧ t.len = none ∧ t.fault = none ∧
      t.refused = none ∧ t.h = [] ∧ t.cfg = s.cfg ∧ t.device = s.device

/-- No step writes the configuration (R31). -/
def Obligations.ConfigurationIsNeverWritten : Prop :=
  ∀ s t : State, step s = .next t → t.cfg = s.cfg

/-- The history only grows: a step of a running engine appends events (R29). -/
def Obligations.HistoryOnlyGrows : Prop :=
  ∀ s t : State, s.running = true → step s = .next t → s.h <+: t.h

/-- The mode only advances, and only inside INIT (R25, R113). -/
def Obligations.ModeOnlyAdvances : Prop :=
  ∀ s t : State, s.controlFits = true → s.running = true → step s = .next t → t.mode ≠ s.mode →
    s.act = .inInit ∧ ((s.mode = .reset ∧ t.mode = .modeNegotiation) ∨ (s.mode = .modeNegotiation ∧ t.mode = .rawActive))

/-- The control state's invariant is kept by every step (R23, R24, R30). -/
def Obligations.ControlIsKept : Prop :=
  ∀ s t : State, s.controlled = true → step s = .next t → t.controlled = true

/-- The invariants hold at reset, in every configuration and before every device, host and Frame Dispatch (R172; that the
bus record starts empty and the bus not acquired is the model's choice, log 17, and so is that no operation is issued or
under way, log 6 and log 12). -/
def Obligations.ResetMeetsTheInvariants : Prop :=
  ∀ (c : Config) (dev : Device) (host : List HostMove) (dispatch : List DispatchMove), dev.spaceFits c = true →
    (State.resetWith c dev host dispatch).controlled = true ∧ (State.resetWith c dev host dispatch).memoryFits = true ∧
    (State.resetWith c dev host dispatch).wireFits ∧
    (State.resetWith c dev host dispatch).h.all (eventAllowed c) = true

/-- Both memories keep their canonical form and their bounds under every step (R26, R54, R57). -/
def Obligations.MemoryFormIsKept : Prop :=
  ∀ s t : State, s.memoryFits = true → step s = .next t → t.memoryFits = true

/-- The bus port carries the history's frames byte for byte, each in one bracket, and nothing else, and is released
between steps (R20, R66, R71 to R75). -/
def Obligations.WireCarriesTheHistory : Prop :=
  ∀ s t : State, s.wireFits → step s = .next t → t.wireFits

/-- The engine issues bus frames only to the addresses of R56, and to the command, mode and mask registers only the
values of R88. -/
def Obligations.TrafficStaysAllowed : Prop :=
  ∀ s t : State, s.controlled = true → s.h.all (eventAllowed s.cfg) = true → step s = .next t →
    t.h.all (eventAllowed t.cfg) = true

/-- From a controlled state under a valid configuration the only faults a step raises are those of the transmit side:
ProtocolDesync never, FrameBufferBounds only in COPY_OUT at FB[CAP], UnwrittenRead only for LEN at TRANSMIT or an unwritten
byte of FB in COPY_OUT; never for a working register, in COPY_IN or in DISPATCH (R24, R103, R144, R153, R157). -/
def Obligations.FaultsComeFromTheTransmitSideOnly : Prop :=
  ∀ (s t : State) (r : FaultReason), s.controlled = true → s.cfg.valid = true → s.fault = none → step s = .next t →
    t.fault = some r →
    (r = .frameBufferBounds ∧ s.pending = some .copyOut ∧ ∃ i, s.tx.ti = some i ∧ s.cfg.cap ≤ i) ∨
    (r = .unwrittenRead ∧
      ((s.len = none ∧ (s.op = some .transmit ∨ s.presentedNow = some 0x03)) ∨
       (s.op = some .copyOut ∧ s.readFb 0 = none) ∨
       (s.pending = some .copyOut ∧ ∃ i, s.tx.ti = some i ∧ s.readFb i.toNat = none)))

/-- A reset that comes after any number of the engine's steps, between two frames of one copy or 16-bit access among them,
abandons what is in progress: every engine state is at its reset value and H empty, the device holds what the frames
already issued left (R171, R172). The model's choices, which R172 does not name: the moves of the others that are still to
come stay (log 8, log 9), and the model's own fields are as at State.reset (log 26): no operation issued or under way and
no answer (log 6, log 12), both result ports none (log 16), the bus not acquired and its record empty (log 17). -/
def Obligations.ResetAbandonsTheRequest : Prop :=
  ∀ (s t : State) (k : Nat) (ms : List HostMove), s.host = List.replicate k HostMove.pause ++ .reset :: ms →
    run k { s with host := [] } = .next t →
    run (k + 1) s = .next (State.resetWith s.cfg t.device ms t.dispatch)
end

