-- ==== Sys2Proof/Laws/Step.lean ====
section
/-! SUPPORT. Everything a step can do, once: the agent that moves, what its move leaves, and each line of the sequencer. -/

namespace Sys2Proof.Machine

/-- A step resets the engine, or makes the next move of a running one (R15, R28, R171). -/
theorem step_cases {s t : State} (h : step s = .next t) :
    (s.resetAsserted = true ∧ t = s.takeReset) ∨ (s.running = true ∧ nextMove s = .next t) := by
  unfold step at h
  split at h
  · rename_i h1
    cases h
    exact .inl ⟨h1, rfl⟩
  · rename_i h1
    cases hf : s.fault with
    | some r => simp [hf] at h
    | none =>
      cases hr : s.refused with
      | some r => simp [hf, hr] at h
      | none => exact .inr ⟨by simp [State.running, hf, hr, h1], by simpa [hf, hr] using h⟩

/-- The next move: a request presented at once, the rest of the operation under way, the issued operation, the host
while idle, or the line at the top label. -/
theorem nextMove_cases {s t : State} (h : nextMove s = .next t) :
    (∃ code, s.presentedNow = some code ∧ exec (decodeRequest code) { s with host := s.host.tail } = .next t) ∨
    (∃ r, s.pending = some r ∧ resume r { s.passTime with pending := none } = .next t) ∨
    (∃ i, s.pending = none ∧ s.op = some i ∧ exec i { s.passTime with op := none } = .next t) ∨
    (s.pending = none ∧ s.op = none ∧ s.pc = [] ∧ hostMove s = .next t) ∨
    (∃ l rest, s.pending = none ∧ s.op = none ∧ s.pc = l :: rest ∧ runLine l s.passTime = .next t) := by
  unfold nextMove at h
  cases hn : s.presentedNow with
  | some code => exact .inl ⟨code, rfl, by simpa only [hn] using h⟩
  | none =>
    cases hp : s.pending with
    | some r => exact .inr (.inl ⟨r, rfl, by simpa only [hn, hp] using h⟩)
    | none =>
      cases ho : s.op with
      | some i => exact .inr (.inr (.inl ⟨i, rfl, rfl, by simpa only [hn, hp, ho] using h⟩))
      | none =>
        simp only [hn, hp, ho, advance] at h
        cases hpc : s.pc with
        | nil => exact .inr (.inr (.inr (.inl ⟨rfl, rfl, rfl, by simpa only [hpc] using h⟩)))
        | cons l rest => exact .inr (.inr (.inr (.inr ⟨l, rest, rfl, rfl, rfl, by simpa only [hpc] using h⟩)))

/-- A step of a running engine that nothing at once disturbs is its next operation, its line or its agent's move. -/
theorem step_of_running {s : State} (h : s.running = true) : step s = nextMove s := by
  simp only [State.running, Bool.and_eq_true, Option.isNone_iff_eq_none, Bool.not_eq_true'] at h
  simp [step, h]

/-- The rest of an operation: the second frame of a 16-bit one, or one turn of a copy (R94, R95, R100, R101). -/
theorem resume_cases {r : Pending} {s t : State} (h : resume r s = .next t) :
    (∃ a hi, r = .read16Low a hi ∧ t = (busRead a s).2.answer (.data (concatBytes hi (busRead a s).1))) ∨
    (∃ a lo, r = .write16Low a lo ∧ t = (busWrite a lo s).answer .done) ∨
    (r = .copyIn ∧ copyInTurn s = .next t) ∨ (r = .copyOut ∧ copyOutTurn s = .next t) := by
  cases r with
  | read16Low a hi => exact .inl ⟨a, hi, rfl, by simpa [resume, resumeRead16] using h.symm⟩
  | write16Low a lo => exact .inr (.inl ⟨a, lo, rfl, by simpa [resume, resumeWrite16, runWrite] using h.symm⟩)
  | copyIn => exact .inr (.inr (.inl ⟨rfl, h⟩))
  | copyOut => exact .inr (.inr (.inr ⟨rfl, h⟩))

/-- An agent's write to the frame buffer lands inside it. -/
theorem agentWriteFb_next {i : Word} {b : Byte} {s t : State} (h : agentWriteFb i b s = .next t) :
    i < s.cfg.cap ∧ t = s.writeFb i b := by
  unfold agentWriteFb at h
  split at h
  · rename_i hi
    cases h
    exact ⟨hi, rfl⟩
  · cases h

/-- What the host's move leaves (R148, R171). -/
theorem hostMove_cases {s t : State} (h : hostMove s = .next t) :
    t = s ∨ t = { s with host := s.host.tail } ∨ (∃ code, t = present code { s with host := s.host.tail }) ∨
    (∃ i b, i < s.cfg.cap ∧ t = State.writeFb i b { s with host := s.host.tail }) ∨
    (∃ v, t = { s with host := s.host.tail, len := some v }) ∨ (s.resetAsserted = true ∧ t = s.takeReset) := by
  unfold hostMove at h
  cases hh : s.host with
  | nil => exact .inl (by simpa [hh] using h.symm)
  | cons m ms =>
    cases m with
    | pause => exact .inr (.inl (by simpa [hh] using h.symm))
    | request code => exact .inr (.inr (.inl ⟨code, by simpa [hh] using h.symm⟩))
    | requestNow code => exact .inr (.inr (.inl ⟨code, by simpa [hh] using h.symm⟩))
    | writeFb i b =>
      obtain ⟨hi, rfl⟩ := agentWriteFb_next (by simpa only [hh] using h)
      exact .inr (.inr (.inr (.inl ⟨i, b, hi, rfl⟩)))
    | writeLen v => exact .inr (.inr (.inr (.inr (.inl ⟨v, by simpa [hh] using h.symm⟩))))
    | reset =>
      exact .inr (.inr (.inr (.inr (.inr ⟨by simp [State.resetAsserted, hh], by simpa [State.takeReset, hh] using h.symm⟩))))

/-- What Frame Dispatch's move leaves (R145, R146). -/
theorem dispatchMove_cases {s t : State} (h : dispatchMove s = .next t) :
    t = s ∨ (∃ code, t = present code { s with dispatch := s.dispatch.tail }) ∨
    (∃ i b, i < s.cfg.cap ∧ t = State.writeFb i b { s with dispatch := s.dispatch.tail }) ∨
    (∃ v, t = { s with dispatch := s.dispatch.tail, len := some v }) ∨
    t = { s with dispatch := s.dispatch.tail }.returnFromCallout := by
  unfold dispatchMove at h
  cases hh : s.dispatch with
  | nil => exact .inl (by simpa [hh] using h.symm)
  | cons m ms =>
    cases m with
    | request code => exact .inr (.inl ⟨code, by simpa [hh] using h.symm⟩)
    | writeFb i b =>
      obtain ⟨hi, rfl⟩ := agentWriteFb_next (by simpa only [hh] using h)
      exact .inr (.inr (.inl ⟨i, b, hi, rfl⟩))
    | writeLen v => exact .inr (.inr (.inr (.inl ⟨v, by simpa [hh] using h.symm⟩)))
    | ret => exact .inr (.inr (.inr (.inr (by simpa [hh] using h.symm))))

/-- A line that waits for an operation issues it, or goes on. -/
theorem await_next {i : Instr} {s t : State} {k : Answer} (h : await i s k = .next t) :
    (s.opResult = .empty ∧ t = s.issue i) ∨ (s.opResult ≠ .empty ∧ k = .next t) := by
  unfold await at h
  cases ho : s.opResult <;> simp only [ho] at h
  · cases h
    exact .inl ⟨rfl, rfl⟩
  · exact .inr ⟨by simp, h⟩
  · exact .inr ⟨by simp, h⟩

/-- A line that waits for a read issues it, or goes on with its value. -/
theorem awaitData_next {i : Instr} {s t : State} {k : Word → Answer} (h : awaitData i s k = .next t) :
    t = s.issue i ∨ ∃ v, s.opResult = .data v ∧ k v = .next t := by
  unfold awaitData at h
  cases ho : s.opResult <;> simp only [ho] at h
  · cases h
    exact .inl rfl
  · cases h
    exact .inl rfl
  · exact .inr ⟨_, rfl, h⟩

/-- What an instruction's meaning leaves: a mark, one bus frame answered or with the second
one pending, a request or the callout entered, the drain entered, or a copy's first turn (R92 to R95, R100, R101, R125, R144, R153, R154). -/
theorem exec_cases {i : Instr} {s t : State} (h : exec i s = .next t) :
    (∃ r, t = s.raise r) ∨ (∃ r, t = s.refuse r) ∨
    (∃ a, t = (busRead a s).2.answer (.data (zeroExtend (busRead a s).1))) ∨
    (∃ a d, t = (busWrite a d s).answer .done) ∨
    (∃ a, i = .read16 a ∧ t = (busRead a s).2.pend (.read16Low (nextAddr a) (busRead a s).1)) ∨
    (∃ a v, i = .write16 a v ∧ t = (busWrite a (hiByte v) s).pend (.write16Low (nextAddr a) (loByte v))) ∨
    (i = .init ∧ s.act = .idle ∧ s.mode ≠ .rawActive ∧
      t = State.enter .inInit .i1 { s with initBank := .unwritten }) ∨
    (i = .pollOnce ∧ s.act = .idle ∧ s.mode = .rawActive ∧
      t = State.enter .inPoll .p1 { s with poll := .unwritten, rx := .unwritten }) ∨
    (∃ n, i = .transmit ∧ s.len = some n ∧ s.mode = .rawActive ∧ (s.act = .idle ∨ s.act = .inDispatch) ∧
      t = State.enter (if s.act = .idle then .inTransmit else .inNestedTransmit) .t1
        { s with tx := { TxBank.unwritten with tlen := some n } }) ∨
    (i = .receiveDrain ∧ t = s.goto .d1) ∨
    (∃ n bs, i = .dispatch ∧ s.len = some n ∧ s.readFbBytes 0 n.toNat = .ok bs ∧ t = s.callout n bs) ∨
    (∃ p n, i = .copyIn ∧ s.rx.rcur = some p ∧ s.rx.size = some n ∧
      copyInTurn (s.setRxCursor (phys s.cfg.rxBase s.cfg.rxMask p) 0) = .next t) ∨
    (∃ p n, i = .copyOut ∧ s.tx.wr0 = some p ∧ s.tx.tlen = some n ∧
      copyOutTurn (s.setTxCursor (phys s.cfg.txBase s.cfg.txMask p) 0) = .next t) := by
  have rd : ∀ a, runRead a s = .next t → ∃ a, t = (busRead a s).2.answer (.data (zeroExtend (busRead a s).1)) :=
    fun a h => ⟨a, by simpa [runRead] using h.symm⟩
  have wr : ∀ a d, runWrite a d s = .next t → ∃ a d, t = (busWrite a d s).answer .done :=
    fun a d h => ⟨a, d, by simpa [runWrite] using h.symm⟩
  cases i <;> simp only [exec] at h
  case init =>
    unfold execInit at h
    split at h
    · cases h
      exact .inr (.inl ⟨_, rfl⟩)
    · split at h <;> cases h
      · exact .inr (.inl ⟨_, rfl⟩)
      · rename_i ha hm
        exact .inr (.inr (.inr (.inr (.inr (.inr (.inl ⟨rfl, by simpa using ha, hm, rfl⟩))))))
  case pollOnce =>
    unfold execPollOnce at h
    split at h
    · cases h
      exact .inr (.inl ⟨_, rfl⟩)
    · split at h <;> cases h
      · exact .inr (.inl ⟨_, rfl⟩)
      · rename_i ha hm
        exact .inr (.inr (.inr (.inr (.inr (.inr (.inr (.inl ⟨rfl, by simpa using ha, by simpa using hm, rfl⟩)))))))
  case transmit =>
    unfold execTransmit at h
    split at h
    · cases h
      exact .inr (.inl ⟨_, rfl⟩)
    · split at h
      · cases h
        exact .inr (.inl ⟨_, rfl⟩)
      · rename_i ha hm
        rcases withWritten_next h with ⟨_, rfl⟩ | ⟨n, hn, h⟩
        · exact .inl ⟨_, rfl⟩
        · cases h
          exact .inr (.inr (.inr (.inr (.inr (.inr (.inr (.inr (.inl
            ⟨n, rfl, hn, by simpa using hm, not_not.1 ha, rfl⟩))))))))
  case reservedRequest code =>
    cases h
    exact .inr (.inl ⟨_, rfl⟩)
  case receiveDrain =>
    cases h
    exact .inr (.inr (.inr (.inr (.inr (.inr (.inr (.inr (.inr (.inl ⟨rfl, rfl⟩)))))))))
  case dispatch =>
    rcases withWritten_next h with ⟨_, rfl⟩ | ⟨n, hn, h⟩
    · exact .inl ⟨_, rfl⟩
    · split at h
      · cases h
        exact .inl ⟨_, rfl⟩
      · rename_i bs hbs
        cases h
        exact .inr (.inr (.inr (.inr (.inr (.inr (.inr (.inr (.inr (.inr (.inl ⟨n, bs, rfl, hn, hbs, rfl⟩))))))))))
  case copyIn =>
    rcases withWritten_next h with ⟨_, rfl⟩ | ⟨p, hp, h⟩
    · exact .inl ⟨_, rfl⟩
    · rcases withWritten_next h with ⟨_, rfl⟩ | ⟨n, hn, h⟩
      · exact .inl ⟨_, rfl⟩
      · exact .inr (.inr (.inr (.inr (.inr (.inr (.inr (.inr (.inr (.inr (.inr (.inl ⟨p, n, rfl, hp, hn, h⟩)))))))))))
  case copyOut =>
    rcases withWritten_next h with ⟨_, rfl⟩ | ⟨p, hp, h⟩
    · exact .inl ⟨_, rfl⟩
    · rcases withWritten_next h with ⟨_, rfl⟩ | ⟨n, hn, h⟩
      · exact .inl ⟨_, rfl⟩
      · exact .inr (.inr (.inr (.inr (.inr (.inr (.inr (.inr (.inr (.inr (.inr (.inr ⟨p, n, rfl, hp, hn, h⟩)))))))))))
  case read16 a =>
    cases h
    exact .inr (.inr (.inr (.inr (.inl ⟨a, rfl, rfl⟩))))
  case write16 a v =>
    cases h
    exact .inr (.inr (.inr (.inr (.inr (.inl ⟨a, v, rfl, rfl⟩)))))
  case read8 => exact .inr (.inr (.inl (rd _ h)))
  case readSr => exact .inr (.inr (.inl (rd _ h)))
  case readIr => exact .inr (.inr (.inl (rd _ h)))
  case readS0Ir => exact .inr (.inr (.inl (rd _ h)))
  all_goals exact .inr (.inr (.inr (.inl (wr _ _ h))))

/-- Every meaning answers a next state, whatever the state: no instruction stops (a mark it sets stops a later step). -/
theorem exec_answers_next (i : Instr) (s : State) : ∃ t, exec i s = .next t := by
  cases i <;> simp only [exec]
  case init =>
    unfold execInit
    split
    · exact ⟨_, rfl⟩
    · split <;> exact ⟨_, rfl⟩
  case pollOnce =>
    unfold execPollOnce
    split
    · exact ⟨_, rfl⟩
    · split <;> exact ⟨_, rfl⟩
  case transmit =>
    unfold execTransmit
    split
    · exact ⟨_, rfl⟩
    · split
      · exact ⟨_, rfl⟩
      · exact withWritten_answers _ _ _ fun n => ⟨_, rfl⟩
  case copyIn => exact withWritten_answers _ _ _ fun p => withWritten_answers _ _ _ fun n => copyInTurn_answers _
  case copyOut => exact withWritten_answers _ _ _ fun p => withWritten_answers _ _ _ fun n => copyOutTurn_answers _
  case dispatch =>
    refine withWritten_answers _ _ _ fun n => ?_
    split <;> exact ⟨_, rfl⟩
  all_goals exact ⟨_, rfl⟩

end Sys2Proof.Machine
end

