-- ==== Sys2Proof/Laws/Lines.lean ====
section
/-! SUPPORT. Everything each line of the sequencer can do, one lemma for each line (R107, R115, R125, R134). -/

namespace Sys2Proof.Machine

/-- I1 (R108). -/
theorem lineI1_next {s t : State} (h : lineI1 s = .next t) :
    t = s.issue .mrReset ∨ t = s.goto .i2 := by
  unfold lineI1 at h
  rcases await_next h with ⟨_, rfl⟩ | ⟨_, h⟩
  · exact .inl rfl
  · cases h
    exact .inr rfl

/-- I2 (R108, R113). -/
theorem lineI2_next {s t : State} (h : lineI2 s = .next t) :
    t = s.issue .imrClear ∨ t = State.goto .i3 { s with mode := .modeNegotiation, initBank := { s.initBank with nneg := some 0 } } := by
  unfold lineI2 at h
  rcases await_next h with ⟨_, rfl⟩ | ⟨_, h⟩
  · exact .inl rfl
  · cases h
    exact .inr rfl

/-- I3 (R112). -/
theorem lineI3_next {s t : State} (h : lineI3 s = .next t) :
    (s.initBank.nneg = none ∧ t = s.raise .unwrittenRead) ∨
    ∃ n, s.initBank.nneg = some n ∧
      (t = s.finish .negotiationTimeout ∨ t = State.goto .i4 { s with initBank := { s.initBank with nneg := some (n + 1) } }) := by
  unfold lineI3 at h
  rcases withWritten_next h with ⟨h0, rfl⟩ | ⟨n, hn, h⟩
  · exact .inl ⟨h0, rfl⟩
  · refine .inr ⟨n, hn, ?_⟩
    split at h <;> cases h
    · exact .inl rfl
    · exact .inr rfl

/-- I4 (R109). -/
theorem lineI4_next {s t : State} (h : lineI4 s = .next t) :
    t = s.issue .setMacraw ∨ t = s.goto .i5 := by
  unfold lineI4 at h
  rcases await_next h with ⟨_, rfl⟩ | ⟨_, h⟩
  · exact .inl rfl
  · cases h
    exact .inr rfl

/-- I5 (R109). -/
theorem lineI5_next {s t : State} (h : lineI5 s = .next t) :
    t = s.issue .cmdOpen ∨ t = s.goto .i6 := by
  unfold lineI5 at h
  rcases await_next h with ⟨_, rfl⟩ | ⟨_, h⟩
  · exact .inl rfl
  · cases h
    exact .inr rfl

/-- I6 (R109). -/
theorem lineI6_next {s t : State} (h : lineI6 s = .next t) :
    t = s.issue .readSr ∨
    ∃ v, s.opResult = .data v ∧ t = State.goto .i7 { s with initBank := { s.initBank with st := some (loByte v) } } := by
  unfold lineI6 at h
  rcases awaitData_next h with rfl | ⟨v, hv, h⟩
  · exact .inl rfl
  · cases h
    exact .inr ⟨v, hv, rfl⟩

/-- I7 (R110). -/
theorem lineI7_next {s t : State} (h : lineI7 s = .next t) :
    (s.initBank.st = none ∧ t = s.raise .unwrittenRead) ∨
    ∃ v, s.initBank.st = some v ∧ (t = State.finish .done { s with mode := .rawActive } ∨ t = s.goto .i8) := by
  unfold lineI7 at h
  rcases withWritten_next h with ⟨h0, rfl⟩ | ⟨v, hv, h⟩
  · exact .inl ⟨h0, rfl⟩
  · refine .inr ⟨v, hv, ?_⟩
    split at h <;> cases h
    · exact .inl rfl
    · exact .inr rfl

/-- I8 (R111). -/
theorem lineI8_next {s t : State} (h : lineI8 s = .next t) :
    t = s.issue .cmdClose ∨ t = s.goto .i3 := by
  unfold lineI8 at h
  rcases await_next h with ⟨_, rfl⟩ | ⟨_, h⟩
  · exact .inl rfl
  · cases h
    exact .inr rfl

/-- P1 (R116). -/
theorem lineP1_next {s t : State} (h : lineP1 s = .next t) :
    t = s.issue .readIr ∨ ∃ v, s.opResult = .data v ∧
    (t = State.finish .done { s with poll := { s.poll with ir := some (loByte v) } } ∨
      t = State.goto .p2 { s with poll := { s.poll with ir := some (loByte v) } }) := by
  unfold lineP1 at h
  rcases awaitData_next h with rfl | ⟨v, hv, h⟩
  · exact .inl rfl
  · refine .inr ⟨v, hv, ?_⟩
    split at h <;> cases h
    · exact .inl rfl
    · exact .inr rfl

/-- P2 (R117). -/
theorem lineP2_next {s t : State} (h : lineP2 s = .next t) :
    (s.poll.ir = none ∧ t = s.raise .unwrittenRead) ∨ t = s.issue .readS0Ir ∨
    (∃ v, s.opResult = .data v ∧ t = State.goto .p3 { s with poll := { s.poll with sir := some (loByte v) } }) ∨
    t = s.goto .p5 := by
  unfold lineP2 at h
  rcases withWritten_next h with ⟨h0, rfl⟩ | ⟨ir, _, h⟩
  · exact .inl ⟨h0, rfl⟩
  · split at h
    · rcases awaitData_next h with rfl | ⟨v, hv, h⟩
      · exact .inr (.inl rfl)
      · cases h
        exact .inr (.inr (.inl ⟨v, hv, rfl⟩))
    · cases h
      exact .inr (.inr (.inr rfl))

/-- P3 (R118). -/
theorem lineP3_next {s t : State} (h : lineP3 s = .next t) :
    (s.poll.sir = none ∧ t = s.raise .unwrittenRead) ∨ t = s.issue .ackSendOk ∨ t = s.goto .p4 := by
  unfold lineP3 at h
  rcases withWritten_next h with ⟨h0, rfl⟩ | ⟨sir, _, h⟩
  · exact .inl ⟨h0, rfl⟩
  · split at h
    · rcases await_next h with ⟨_, rfl⟩ | ⟨_, h⟩
      · exact .inr (.inl rfl)
      · cases h
        exact .inr (.inr rfl)
    · cases h
      exact .inr (.inr rfl)

/-- P4 (R119). -/
theorem lineP4_next {s t : State} (h : lineP4 s = .next t) :
    (s.poll.sir = none ∧ t = s.raise .unwrittenRead) ∨ t = s.issue .receiveDrain ∨ t = s.goto .p5 := by
  unfold lineP4 at h
  rcases withWritten_next h with ⟨h0, rfl⟩ | ⟨sir, _, h⟩
  · exact .inl ⟨h0, rfl⟩
  · split at h <;> cases h
    · exact .inr (.inl rfl)
    · exact .inr (.inr rfl)

/-- P5 (R120). -/
theorem lineP5_next {s t : State} (h : lineP5 s = .next t) :
    (s.poll.ir = none ∧ t = s.raise .unwrittenRead) ∨ ∃ v, s.poll.ir = some v ∧ (t = s.issue (.ackIr v) ∨ t = s.finish .done) := by
  unfold lineP5 at h
  rcases withWritten_next h with ⟨h0, rfl⟩ | ⟨v, hv, h⟩
  · exact .inl ⟨h0, rfl⟩
  · refine .inr ⟨v, hv, ?_⟩
    rcases await_next h with ⟨_, rfl⟩ | ⟨_, h⟩
    · exact .inl rfl
    · cases h
      exact .inr rfl

/-- D1 (R126). -/
theorem lineD1_next {s t : State} (h : lineD1 s = .next t) :
    t = s.issue (.read16 (s0RxRsr s.cfg.regmap)) ∨
    ∃ v, s.opResult = .data v ∧ t = State.goto .d2 { s with rx := { s.rx with rsr := some v, size := some (rxSize s.cfg v) } } := by
  unfold lineD1 at h
  rcases awaitData_next h with rfl | ⟨v, hv, h⟩
  · exact .inl rfl
  · cases h
    exact .inr ⟨v, hv, rfl⟩

/-- D2 (R128). -/
theorem lineD2_next {s t : State} (h : lineD2 s = .next t) :
    t = s.issue (.read16 (s0RxRd s.cfg.regmap)) ∨
    ∃ v, s.opResult = .data v ∧ t = State.goto .d3 { s with rx := { s.rx with rd0 := some v, rcur := some (rxCursor s.cfg v) } } := by
  unfold lineD2 at h
  rcases awaitData_next h with rfl | ⟨v, hv, h⟩
  · exact .inl rfl
  · cases h
    exact .inr ⟨v, hv, rfl⟩

/-- D3 (R129). -/
theorem lineD3_next {s t : State} (h : lineD3 s = .next t) :
    (s.rx.size = none ∧ t = s.raise .unwrittenRead) ∨
    ∃ n, s.rx.size = some n ∧ t = State.goto .d4 { s with rx := { s.rx with drop := some (rxOversized s.cfg n) } } := by
  unfold lineD3 at h
  rcases withWritten_next h with ⟨h0, rfl⟩ | ⟨n, hn, h⟩
  · exact .inl ⟨h0, rfl⟩
  · cases h
    exact .inr ⟨n, hn, rfl⟩

/-- D4 (R125, R129). -/
theorem lineD4_next {s t : State} (h : lineD4 s = .next t) :
    (s.rx.drop = none ∧ t = s.raise .unwrittenRead) ∨ (s.rx.drop = some false ∧ t = s.issue .copyIn) ∨
    ((s.rx.drop = some true ∨ s.opResult ≠ .empty) ∧ t = s.goto .d5) := by
  unfold lineD4 at h
  rcases withWritten_next h with ⟨h0, rfl⟩ | ⟨drop, hd, h⟩
  · exact .inl ⟨h0, rfl⟩
  · cases drop with
    | true =>
      cases h
      exact .inr (.inr ⟨.inl hd, rfl⟩)
    | false =>
      rcases await_next (i := .copyIn) h with ⟨_, rfl⟩ | ⟨ho, h⟩
      · exact .inr (.inl ⟨hd, rfl⟩)
      · cases h
        exact .inr (.inr ⟨.inr ho, rfl⟩)

/-- D5 (R130). -/
theorem lineD5_next {s t : State} (h : lineD5 s = .next t) :
    ((s.rx.rd0 = none ∨ s.rx.size = none) ∧ t = s.raise .unwrittenRead) ∨
    ∃ rd0 n, s.rx.rd0 = some rd0 ∧ s.rx.size = some n ∧
      (t = s.issue (.write16 (s0RxRd s.cfg.regmap) (rxCommit s.cfg rd0 n)) ∨ t = s.goto .d6) := by
  unfold lineD5 at h
  rcases withWritten_next h with ⟨h0, rfl⟩ | ⟨rd0, hr, h⟩
  · exact .inl ⟨.inl h0, rfl⟩
  · rcases withWritten_next h with ⟨h0, rfl⟩ | ⟨n, hn, h⟩
    · exact .inl ⟨.inr h0, rfl⟩
    · refine .inr ⟨rd0, n, hr, hn, ?_⟩
      rcases await_next h with ⟨_, rfl⟩ | ⟨_, h⟩
      · exact .inl rfl
      · cases h
        exact .inr rfl

/-- D6 (R131). -/
theorem lineD6_next {s t : State} (h : lineD6 s = .next t) :
    t = s.issue .cmdRecv ∨ t = s.goto .d7 := by
  unfold lineD6 at h
  rcases await_next h with ⟨_, rfl⟩ | ⟨_, h⟩
  · exact .inl rfl
  · cases h
    exact .inr rfl

/-- D7 (R127). -/
theorem lineD7_next {s t : State} (h : lineD7 s = .next t) :
    (s.cfg.recvAckPoint = .beforeDispatch ∧ t = s.issue .ackRecv) ∨ t = s.goto .d8 := by
  unfold lineD7 at h
  split at h
  · rename_i hk
    rcases await_next h with ⟨_, rfl⟩ | ⟨_, h⟩
    · exact .inl ⟨hk, rfl⟩
    · cases h
      exact .inr rfl
  · cases h
    exact .inr rfl

/-- D8 (R132). -/
theorem lineD8_next {s t : State} (h : lineD8 s = .next t) :
    ((s.rx.drop = none ∨ s.rx.size = none) ∧ t = s.raise .unwrittenRead) ∨
    (∃ n, s.rx.drop = some false ∧ s.rx.size = some n ∧ t = State.issue .dispatch { s with len := some n }) ∨
    t = s.goto .d9 := by
  unfold lineD8 at h
  rcases withWritten_next h with ⟨h0, rfl⟩ | ⟨drop, hd, h⟩
  · exact .inl ⟨.inl h0, rfl⟩
  · rcases withWritten_next h with ⟨h0, rfl⟩ | ⟨n, hn, h⟩
    · exact .inl ⟨.inr h0, rfl⟩
    · cases drop with
      | true =>
        cases h
        exact .inr (.inr rfl)
      | false =>
        cases ho : s.opResult <;> simp only [ho] at h <;> cases h
        · exact .inr (.inl ⟨n, hd, hn, rfl⟩)
        · exact .inr (.inr rfl)
        · exact .inr (.inr rfl)

/-- D9 (R127). -/
theorem lineD9_next {s t : State} (h : lineD9 s = .next t) :
    (s.cfg.recvAckPoint = .afterDispatch ∧ t = s.issue .ackRecv) ∨ t = s.goto .p5 := by
  unfold lineD9 at h
  split at h
  · rename_i hk
    rcases await_next h with ⟨_, rfl⟩ | ⟨_, h⟩
    · exact .inl ⟨hk, rfl⟩
    · cases h
      exact .inr rfl
  · cases h
    exact .inr rfl

/-- T1 (R135). -/
theorem lineT1_next {s t : State} (h : lineT1 s = .next t) :
    (s.tx.tlen = none ∧ t = s.raise .unwrittenRead) ∨ t = s.finish .tooLarge ∨ t = s.goto .t2 := by
  unfold lineT1 at h
  rcases withWritten_next h with ⟨h0, rfl⟩ | ⟨n, _, h⟩
  · exact .inl ⟨h0, rfl⟩
  · split at h <;> cases h
    · exact .inr (.inl rfl)
    · exact .inr (.inr rfl)

/-- T2 (R136). -/
theorem lineT2_next {s t : State} (h : lineT2 s = .next t) :
    t = State.goto .t3 { s with tx := { s.tx with nfsr := some 0 } } := by
  cases h
  rfl

/-- T3 (R136). -/
theorem lineT3_next {s t : State} (h : lineT3 s = .next t) :
    ((s.tx.nfsr = none ∨ s.tx.tlen = none) ∧ t = s.raise .unwrittenRead) ∨ t = s.finish .txSpaceTimeout ∨
    t = s.issue (.read16 (s0TxFsr s.cfg.regmap)) ∨
    ∃ k n v, s.tx.nfsr = some k ∧ s.tx.tlen = some n ∧ s.opResult = .data v ∧
      t = State.goto (if v < n then Label.t3 else Label.t4) { s with tx := { s.tx with fsr := some v, nfsr := some (k + 1) } } := by
  unfold lineT3 at h
  rcases withWritten_next h with ⟨h0, rfl⟩ | ⟨k, hk, h⟩
  · exact .inl ⟨.inl h0, rfl⟩
  · rcases withWritten_next h with ⟨h0, rfl⟩ | ⟨n, hn, h⟩
    · exact .inl ⟨.inr h0, rfl⟩
    · cases ho : s.opResult <;> simp only [ho] at h
      · split at h <;> cases h
        · exact .inr (.inl rfl)
        · exact .inr (.inr (.inl rfl))
      · cases h
        exact .inr (.inr (.inl rfl))
      · cases h
        exact .inr (.inr (.inr ⟨k, n, _, hk, hn, rfl, rfl⟩))

/-- T4 (R137). -/
theorem lineT4_next {s t : State} (h : lineT4 s = .next t) :
    t = s.issue (.read16 (s0TxWr s.cfg.regmap)) ∨
    ∃ v, s.opResult = .data v ∧ t = State.goto .t5 { s with tx := { s.tx with wr0 := some v } } := by
  unfold lineT4 at h
  rcases awaitData_next h with rfl | ⟨v, hv, h⟩
  · exact .inl rfl
  · cases h
    exact .inr ⟨v, hv, rfl⟩

/-- T5 (R138). -/
theorem lineT5_next {s t : State} (h : lineT5 s = .next t) :
    t = s.issue .copyOut ∨ t = s.goto .t6 := by
  unfold lineT5 at h
  rcases await_next h with ⟨_, rfl⟩ | ⟨_, h⟩
  · exact .inl rfl
  · cases h
    exact .inr rfl

/-- T6 (R139). -/
theorem lineT6_next {s t : State} (h : lineT6 s = .next t) :
    ((s.tx.wr0 = none ∨ s.tx.tlen = none) ∧ t = s.raise .unwrittenRead) ∨
    ∃ wr0 n, s.tx.wr0 = some wr0 ∧ s.tx.tlen = some n ∧
      (t = s.issue (.write16 (s0TxWr s.cfg.regmap) (txCommit wr0 n)) ∨ t = s.goto .t7) := by
  unfold lineT6 at h
  rcases withWritten_next h with ⟨h0, rfl⟩ | ⟨wr0, hr, h⟩
  · exact .inl ⟨.inl h0, rfl⟩
  · rcases withWritten_next h with ⟨h0, rfl⟩ | ⟨n, hn, h⟩
    · exact .inl ⟨.inr h0, rfl⟩
    · refine .inr ⟨wr0, n, hr, hn, ?_⟩
      rcases await_next h with ⟨_, rfl⟩ | ⟨_, h⟩
      · exact .inl rfl
      · cases h
        exact .inr rfl

/-- T7 (R140, R141). -/
theorem lineT7_next {s t : State} (h : lineT7 s = .next t) :
    t = s.issue .cmdSend ∨ t = s.finish .sent := by
  unfold lineT7 at h
  rcases await_next h with ⟨_, rfl⟩ | ⟨_, h⟩
  · exact .inl rfl
  · cases h
    exact .inr rfl

end Sys2Proof.Machine
end

