-- ==== Sys2Proof/Laws/PerInstr.lean ====
section
/-! SUPPORT. Statements about every instruction as syntax, one lemma for each constructor: how many bytes its encoding has (30_encoding.md R71, R76, R77, R79, R80, R89). -/

namespace Sys2Proof.Laws.EncodedLength

/-- The number of bytes the opcode table gives a row: one bus frame four, a 16-bit access two frames, a code one. -/
def rowBytes : Instr → Nat
  | .read8 _ => 4
  | .write8 _ _ => 4
  | .read16 _ => 8
  | .write16 _ _ => 8
  | .mrReset => 4
  | .imrClear => 4
  | .setMacraw => 4
  | .cmdOpen => 4
  | .cmdClose => 4
  | .cmdRecv => 4
  | .cmdSend => 4
  | .ackSendOk => 4
  | .ackRecv => 4
  | .ackIr _ => 4
  | .readSr => 4
  | .readIr => 4
  | .readS0Ir => 4
  | .init => 1
  | .pollOnce => 1
  | .transmit => 1
  | .reservedRequest _ => 1
  | .receiveDrain => 1
  | .copyIn => 1
  | .copyOut => 1
  | .dispatch => 1

/-- Under every configuration an instruction's encoding has its row's number of bytes. -/
def Statement (i : Instr) : Prop := ∀ c : Config, (encode c i).length = rowBytes i

theorem read8 (addr : Word) : Statement (.read8 addr) := fun _ => rfl

theorem write8 (addr : Word) (data : Byte) : Statement (.write8 addr data) := fun _ => rfl

theorem read16 (addr : Word) : Statement (.read16 addr) := fun _ => rfl

theorem write16 (addr : Word) (value : Word) : Statement (.write16 addr value) := fun _ => rfl

theorem mrReset : Statement .mrReset := fun _ => rfl

theorem imrClear : Statement .imrClear := fun _ => rfl

theorem setMacraw : Statement .setMacraw := fun _ => rfl

theorem cmdOpen : Statement .cmdOpen := fun _ => rfl

theorem cmdClose : Statement .cmdClose := fun _ => rfl

theorem cmdRecv : Statement .cmdRecv := fun _ => rfl

theorem cmdSend : Statement .cmdSend := fun _ => rfl

theorem ackSendOk : Statement .ackSendOk := fun _ => rfl

theorem ackRecv : Statement .ackRecv := fun _ => rfl

theorem ackIr (v : Byte) : Statement (.ackIr v) := fun _ => rfl

theorem readSr : Statement .readSr := fun _ => rfl

theorem readIr : Statement .readIr := fun _ => rfl

theorem readS0Ir : Statement .readS0Ir := fun _ => rfl

theorem init : Statement .init := fun _ => rfl

theorem pollOnce : Statement .pollOnce := fun _ => rfl

theorem transmit : Statement .transmit := fun _ => rfl

theorem reservedRequest (code : Byte) : Statement (.reservedRequest code) := fun _ => rfl

theorem receiveDrain : Statement .receiveDrain := fun _ => rfl

theorem copyIn : Statement .copyIn := fun _ => rfl

theorem copyOut : Statement .copyOut := fun _ => rfl

theorem dispatch : Statement .dispatch := fun _ => rfl

end Sys2Proof.Laws.EncodedLength
end

