-- ==== Sys2Proof/Laws/Run.lean ====
section
/-! SUPPORT. Runs of an undisturbed engine: the pauses of the host, the one step each of an operation under way, an issued operation and a line, and how runs join. -/

namespace Sys2Proof.Machine

/-! The host's pauses (log 8). -/

theorem hostWaits_afterPause {ms : List HostMove} (h : hostWaits ms = true) : hostWaits (afterPause ms) = true := by
  match ms, h with
  | [], _ => rfl
  | .pause :: ms, h => exact h
  | .request _ :: _, _ => rfl
  | .writeFb _ _ :: _, _ => rfl
  | .writeLen _ :: _, _ => rfl

theorem afterPause_suffix (ms : List HostMove) : afterPause ms <:+ ms := by
  match ms with
  | [] => exact List.suffix_refl _
  | .pause :: ms => exact List.suffix_cons _ _
  | .request _ :: _ => exact List.suffix_refl _
  | .requestNow _ :: _ => exact List.suffix_refl _
  | .writeFb _ _ :: _ => exact List.suffix_refl _
  | .writeLen _ :: _ => exact List.suffix_refl _
  | .reset :: _ => exact List.suffix_refl _

theorem State.undisturbed_iff {s : State} :
    s.undisturbed = true ↔ s.fault = none ∧ s.refused = none ∧ hostWaits s.host = true := by
  simp [State.undisturbed, and_assoc]

/-- An undisturbed engine is running, and no request is presented at once. -/
theorem State.running_of_undisturbed {s : State} (h : s.undisturbed = true) : s.running = true ∧ s.presentedNow = none := by
  obtain ⟨hf, hr, hh⟩ := State.undisturbed_iff.1 h
  cases hm : s.host with
  | nil => simp [State.running, State.presentedNow, State.resetAsserted, hf, hr, hm]
  | cons m ms => cases m <;> simp [hm, hostWaits] at hh <;>
      simp [State.running, State.presentedNow, State.resetAsserted, hf, hr, hm]

/-- An undisturbed engine stays undisturbed when only the host's time and other fields than the marks change. -/
theorem State.undisturbed_of {s t : State} (h : s.undisturbed = true) (hf : t.fault = s.fault) (hr : t.refused = s.refused)
    (hh : t.host = s.host ∨ t.host = afterPause s.host) : t.undisturbed = true := by
  obtain ⟨h1, h2, h3⟩ := State.undisturbed_iff.1 h
  refine State.undisturbed_iff.2 ⟨hf.trans h1, hr.trans h2, ?_⟩
  rcases hh with hh | hh <;> rw [hh]
  · exact h3
  · exact hostWaits_afterPause h3

/-- The next step of an undisturbed engine with an operation under way goes on with it (R15). -/
theorem step_pending {s : State} {r : Pending} (h : s.undisturbed = true) (hp : s.pending = some r) :
    step s = resume r { s.passTime with pending := none } := by
  obtain ⟨h1, h2⟩ := State.running_of_undisturbed h
  rw [step_of_running h1]
  simp only [nextMove, h2, hp]

/-- The next step of an undisturbed engine with an issued operation runs it (log 6). -/
theorem step_op {s : State} {i : Instr} (h : s.undisturbed = true) (hp : s.pending = none) (ho : s.op = some i) :
    step s = exec i { s.passTime with op := none } := by
  obtain ⟨h1, h2⟩ := State.running_of_undisturbed h
  rw [step_of_running h1]
  simp only [nextMove, h2, hp, ho]

/-- The next step of an undisturbed engine at a label with nothing issued runs its line (R23). -/
theorem step_line {s : State} {l : Label} {rest : List Label} (h : s.undisturbed = true) (hp : s.pending = none)
    (ho : s.op = none) (hpc : s.pc = l :: rest) : step s = runLine l s.passTime := by
  obtain ⟨h1, h2⟩ := State.running_of_undisturbed h
  rw [step_of_running h1]
  simp only [nextMove, h2, hp, ho, advance, hpc]

/-- What it is to rest at a label. -/
theorem State.restsAt_iff {s : State} {l : Label} : s.restsAt l = true ↔
    s.undisturbed = true ∧ (∃ rest, s.pc = l :: rest) ∧ s.op = none ∧ s.pending = none ∧ s.opResult = .empty := by
  simp only [State.restsAt, Bool.and_eq_true, beq_iff_eq, Option.isNone_iff_eq_none, and_assoc]
  refine and_congr_right fun _ => and_congr_left fun _ => ?_
  cases s.pc <;> simp

/-! Runs. -/

theorem run_add (j k : Nat) {s t : State} (h : run j s = .next t) : run (j + k) s = run k t := by
  induction j generalizing s with
  | zero =>
    cases h
    rw [Nat.zero_add]
  | succ j ih =>
    rw [Nat.succ_add]
    cases hs : step s with
    | next u =>
      rw [show run (j + 1) s = run j u by simp only [run, hs]] at h
      rw [show run (j + k + 1) s = run (j + k) u by simp only [run, hs]]
      exact ih h
    | fault r => simp [run, hs] at h
    | refused r => simp [run, hs] at h

theorem State.reaches_refl (s : State) : s.reaches s := ⟨0, rfl⟩

theorem State.reaches_step {s t u : State} (h : step s = .next t) (h' : t.reaches u) : s.reaches u := by
  obtain ⟨k, hk⟩ := h'
  exact ⟨k + 1, by simpa [run, h] using hk⟩

theorem State.reaches_trans {s t u : State} (h : s.reaches t) (h' : t.reaches u) : s.reaches u := by
  obtain ⟨j, hj⟩ := h
  obtain ⟨k, hk⟩ := h'
  exact ⟨j + k, (run_add j k hj).trans hk⟩

end Sys2Proof.Machine
end

