-- ==== Sys2Proof/Tests/Slice0.lean ====
section
/-! SUPPORT. The model's own tests: the WellFormed smoke, the words of 30_encoding.md written out bit by bit, one step of each operation with the numbers of 95_test_vectors.md, and for every obligation with hypotheses a state and operands that meet them. -/

namespace Sys2Proof.Tests

open Machine

/-! Helpers. -/

/-- The next state, or none where the answer is a stop. -/
def nextOf : Answer → Option State
  | .next s => some s
  | .fault _ => none
  | .refused _ => none

/-- An operation and then `k` further steps: the rest of an operation of several bus frames, one frame a step (R15). -/
def after (k : Nat) (i : Instr) (s : State) : Option State := (nextOf (exec i s)).bind fun t => nextOf (run k t)

/-- The history after running an operation of one step. -/
def historyOf (i : Instr) (s : State) : Option (List Event) := (nextOf (exec i s)).map State.h

/-- What an operation of one step answers its line. -/
def answerOf (i : Instr) (s : State) : Option OpResult := (nextOf (exec i s)).map State.opResult

/-- The engine at reset before a device whose coming turns answer `bs`. -/
def answering (bs : List Byte) : State := { State.reset with device := ⟨[], bs.map answerTurn, 0⟩ }

/-- The engine in a mode and level, at a stack of labels, before a device whose coming turns answer `bs`. -/
def lineAt (m : Mode) (a : Act) (ls : List Label) (bs : List Byte) : State :=
  { answering bs with mode := m, act := a, pc := ls }

/-- The frame buffer with `bs` in FB[0] upward. -/
def bufferOf : Nat → List Byte → List Host.Cell
  | _, [] => []
  | i, b :: bs => (i, b) :: bufferOf (i + 1) bs

/-- The engine in RawActive with LEN and the frame buffer written. -/
def loaded (n : Word) (bs : List Byte) : State :=
  { State.reset with mode := .rawActive, len := some n, fb := bufferOf 0 bs }

/-- Inside the callout of a POLL_ONCE, before the moves Frame Dispatch makes. -/
def callout (ms : List DispatchMove) : State :=
  { lineAt .rawActive .inDispatch [.dispatch, .d8] [] with
    dispatch := ms, len := some 4, rx := { RxBank.unwritten with drop := some false, size := some 4 } }

/-- An idle engine before the host's moves. -/
def idleWith (ms : List HostMove) : State := { State.reset with mode := .rawActive, host := ms }

/-! WellFormed: an ill-formed operation for each check. -/

theorem test_wf_named_read : Instr.wf RegMap.default (.read8 0x0403) = false ∧ Instr.wf RegMap.default (.read8 0x0015) = false ∧
    Instr.wf RegMap.default (.read8 0x0402) = false := by decide

theorem test_wf_named_write : Instr.wf RegMap.default (.write8 0x0401 0x01) = false ∧
    Instr.wf RegMap.default (.write8 0x0000 0x80) = false := by decide

theorem test_wf_write_back : Instr.wf RegMap.default (.write8 0x0015 0x55) = false := by decide

theorem test_wf_reserved : Instr.wf RegMap.default (.reservedRequest 0x01) = false ∧
    Instr.wf RegMap.default (.reservedRequest 0x02) = false ∧ Instr.wf RegMap.default (.reservedRequest 0x03) = false := by decide

theorem test_wf_accepts : Instr.wf RegMap.default (.read8 0x0420) = true ∧ Instr.wf RegMap.default (.write8 0x47FE 0xA1) = true ∧
    Instr.wf RegMap.default (.reservedRequest 0x00) = true ∧ Instr.wf RegMap.default (.reservedRequest 0x80) = true := by decide

/-! Decoding, each word written out from R71 to R80: opcode, address high, address low, data. -/

/-- READ8(0x0420), R72; V9's kind of frame. -/
theorem test_decode_read8 :
    decodeTableWord 32 (0b00001111#8 ++ 0b00000100#8 ++ 0b00100000#8 ++ 0b00000000#8 : BitVec 32).toNat = some (.read8 0x0420) := by decide

/-- WRITE8(0x47FE, 0xA1), R73; V1's first data frame. -/
theorem test_decode_write8 :
    decodeTableWord 32 (0b11110000#8 ++ 0b01000111#8 ++ 0b11111110#8 ++ 0b10100001#8 : BitVec 32).toNat = some (.write8 0x47FE 0xA1) := by decide

/-- READ16(0x0424), R76, V9: the first frame is bits 31 to 0, the second, at 0x0425, bits 63 to 32. -/
theorem test_decode_read16 :
    decodeTableWord 64 (0b00001111#8 ++ 0b00000100#8 ++ 0b00100101#8 ++ 0b00000000#8 ++
      0b00001111#8 ++ 0b00000100#8 ++ 0b00100100#8 ++ 0b00000000#8 : BitVec 64).toNat = some (.read16 0x0424) := by decide

/-- WRITE16(0x0424, 0x0802), R77, V10: high byte at 0x0424 first. -/
theorem test_decode_write16 :
    decodeTableWord 64 (0b11110000#8 ++ 0b00000100#8 ++ 0b00100101#8 ++ 0b00000010#8 ++
      0b11110000#8 ++ 0b00000100#8 ++ 0b00100100#8 ++ 0b00001000#8 : BitVec 64).toNat = some (.write16 0x0424 0x0802) := by decide

/-- MR_RESET, R78. -/
theorem test_decode_mrReset :
    decodeTableWord 32 (0b11110000#8 ++ 0b00000000#8 ++ 0b00000000#8 ++ 0b10000000#8 : BitVec 32).toNat = some .mrReset := by decide

/-- IMR_CLEAR, R78. -/
theorem test_decode_imrClear :
    decodeTableWord 32 (0b11110000#8 ++ 0b00000000#8 ++ 0b00010110#8 ++ 0b00000000#8 : BitVec 32).toNat = some .imrClear := by decide

/-- SET_MACRAW, R78. -/
theorem test_decode_setMacraw :
    decodeTableWord 32 (0b11110000#8 ++ 0b00000100#8 ++ 0b00000000#8 ++ 0b00000100#8 : BitVec 32).toNat = some .setMacraw := by decide

/-- CMD_OPEN, R78. -/
theorem test_decode_cmdOpen :
    decodeTableWord 32 (0b11110000#8 ++ 0b00000100#8 ++ 0b00000001#8 ++ 0b00000001#8 : BitVec 32).toNat = some .cmdOpen := by decide

/-- CMD_CLOSE, R78. -/
theorem test_decode_cmdClose :
    decodeTableWord 32 (0b11110000#8 ++ 0b00000100#8 ++ 0b00000001#8 ++ 0b00010000#8 : BitVec 32).toNat = some .cmdClose := by decide

/-- CMD_RECV, R78. -/
theorem test_decode_cmdRecv :
    decodeTableWord 32 (0b11110000#8 ++ 0b00000100#8 ++ 0b00000001#8 ++ 0b01000000#8 : BitVec 32).toNat = some .cmdRecv := by decide

/-- CMD_SEND, R78. -/
theorem test_decode_cmdSend :
    decodeTableWord 32 (0b11110000#8 ++ 0b00000100#8 ++ 0b00000001#8 ++ 0b00100000#8 : BitVec 32).toNat = some .cmdSend := by decide

/-- ACK_SEND_OK, R78. -/
theorem test_decode_ackSendOk :
    decodeTableWord 32 (0b11110000#8 ++ 0b00000100#8 ++ 0b00000010#8 ++ 0b00010000#8 : BitVec 32).toNat = some .ackSendOk := by decide

/-- ACK_RECV, R78. -/
theorem test_decode_ackRecv :
    decodeTableWord 32 (0b11110000#8 ++ 0b00000100#8 ++ 0b00000010#8 ++ 0b00000100#8 : BitVec 32).toNat = some .ackRecv := by decide

/-- ACK_IR(0x81), R78; P3's last frame. -/
theorem test_decode_ackIr :
    decodeTableWord 32 (0b11110000#8 ++ 0b00000000#8 ++ 0b00010101#8 ++ 0b10000001#8 : BitVec 32).toNat = some (.ackIr 0x81) := by decide

/-- READ_SR; V7's frame. -/
theorem test_decode_readSr :
    decodeTableWord 32 (0b00001111#8 ++ 0b00000100#8 ++ 0b00000011#8 ++ 0b00000000#8 : BitVec 32).toNat = some .readSr := by decide

/-- READ_IR; P1's frame 10. -/
theorem test_decode_readIr :
    decodeTableWord 32 (0b00001111#8 ++ 0b00000000#8 ++ 0b00010101#8 ++ 0b00000000#8 : BitVec 32).toNat = some .readIr := by decide

/-- READ_S0_IR; P2's frame 2. -/
theorem test_decode_readS0Ir :
    decodeTableWord 32 (0b00001111#8 ++ 0b00000100#8 ++ 0b00000010#8 ++ 0b00000000#8 : BitVec 32).toNat = some .readS0Ir := by decide

/-- The host requests, R79, and the reserved codes of V55. -/
theorem test_decode_requests : decodeTableWord 8 0b00000001 = some .init ∧ decodeTableWord 8 0b00000010 = some .pollOnce ∧
    decodeTableWord 8 0b00000011 = some .transmit ∧ decodeTableWord 8 0b00000000 = some (.reservedRequest 0x00) ∧
    decodeTableWord 8 0b01111111 = some (.reservedRequest 0x7F) ∧ decodeRequest 0b10000000 = .reservedRequest 0x80 ∧
    decodeRequest 0b11111111 = .reservedRequest 0xFF := by decide

/-- The internal operations, R80. -/
theorem test_decode_internal : decodeTableWord 8 0b10000000 = some .receiveDrain ∧ decodeTableWord 8 0b10000001 = some .copyIn ∧
    decodeTableWord 8 0b10000010 = some .copyOut ∧ decodeTableWord 8 0b10000011 = some .dispatch := by decide

/-- What the decoder refuses, by name: an opcode that is neither (R86), a pair whose second address is not the next, a
length no operation has (R89). -/
theorem test_decode_refuses : decode Config.default .bus [0x0E, 0x04, 0x01, 0x00] = .error .invalidFrame ∧
    decode Config.default .bus [0x0F, 0x04, 0x24, 0x00, 0x0F, 0x04, 0x26, 0x00] = .error .notAPair ∧
    decode Config.default .bus [0x0F, 0x04, 0x24] = .error .badLength ∧
    decode Config.default .internal [0x84] = .error .unknownInternal := by decide

/-- The encoder writes V10's two frames, high byte first. -/
theorem test_encode_write16 :
    encode Config.default (.write16 0x0424 0x0802) = [0xF0, 0x04, 0x24, 0x08, 0xF0, 0x04, 0x25, 0x02] := by decide

/-! Register transport, one step each. -/

/-- V7. -/
theorem test_read8 : historyOf (.read8 0x0403) (answering [0x42]) = some [.r8 0x0403 0x42] ∧
    answerOf (.read8 0x0403) (answering [0x42]) = some (.data 0x0042) := by decide

/-- V8, the frame word F0040101 on the bus port in one bracket (R75). -/
theorem test_write8 : historyOf (.write8 0x0401 0x01) State.reset = some [.w8 0x0401 0x01] ∧
    (nextOf (exec (.write8 0x0401 0x01) State.reset)).map State.bus =
      some ⟨false, [.acquire, .xchg 0xF0, .xchg 0x04, .xchg 0x01, .xchg 0x01, .release]⟩ := by decide

/-- V9. -/
theorem test_read16 : (after 1 (.read16 0x0424) (answering [0x07, 0xFE])).map (fun t => (t.h, t.opResult)) =
    some ([.r8 0x0424 0x07, .r8 0x0425 0xFE], .data 0x07FE) := by decide

/-- V11: the second address wraps. -/
theorem test_read16_wraps : (after 1 (.read16 0xFFFF) (answering [0x12, 0x34])).map (fun t => (t.h, t.opResult)) =
    some ([.r8 0xFFFF 0x12, .r8 0x0000 0x34], .data 0x1234) := by decide

/-- V12: the device changes the register between the two frames, and the value is torn (R63). -/
theorem test_read16_torn :
    (after 1 (.read16 0x0420)
      { State.reset with device := ⟨[], [⟨[(0x0420, 0x00), (0x0421, 0xFF)], none⟩, ⟨[(0x0420, 0x01), (0x0421, 0x00)], none⟩], 0⟩ }).map
      State.opResult = some (.data 0x0000) := by decide

/-- V10. -/
theorem test_write16 : (after 1 (.write16 0x0424 0x0802) State.reset).map State.h = some [.w8 0x0424 0x08, .w8 0x0425 0x02] := by decide

/-- R15, R171: the reset input falls between the two frames; the second is never issued. -/
theorem test_write16_reset : (after 1 (.write16 0x0424 0x0802) { State.reset with host := [.reset] }).map
      (fun t => (t.h, t.pending, t.device.held Config.default 0x0424, t.device.held Config.default 0x0425)) =
    some ([], none, some 0x08, some 0x00) := by decide

/-! The named frames, one step each (R78). -/

theorem test_mrReset : historyOf .mrReset State.reset = some [.w8 0x0000 0x80] := by decide

theorem test_imrClear : historyOf .imrClear State.reset = some [.w8 0x0016 0x00] := by decide

theorem test_setMacraw : historyOf .setMacraw State.reset = some [.w8 0x0400 0x04] := by decide

theorem test_cmdOpen : historyOf .cmdOpen State.reset = some [.w8 0x0401 0x01] := by decide

theorem test_cmdClose : historyOf .cmdClose State.reset = some [.w8 0x0401 0x10] := by decide

theorem test_cmdRecv : historyOf .cmdRecv State.reset = some [.w8 0x0401 0x40] := by decide

theorem test_cmdSend : historyOf .cmdSend State.reset = some [.w8 0x0401 0x20] := by decide

/-- V4: S0_IR holds 0x14, writing 0x10 leaves 0x04. -/
theorem test_ackSendOk : historyOf .ackSendOk State.reset = some [.w8 0x0402 0x10] ∧
    ((Device.reset.store Config.default 0x0402 0x14).take Config.default 0x0402 0x10).held Config.default 0x0402 = some 0x04 := by decide

/-- V4: writing a flag that is clear already alters nothing. -/
theorem test_ackSendOk_idempotent :
    ((Device.reset.store Config.default 0x0402 0x04).take Config.default 0x0402 0x10).held Config.default 0x0402 = some 0x04 := by decide

theorem test_ackRecv : historyOf .ackRecv State.reset = some [.w8 0x0402 0x04] := by decide

/-- V4: A_IR holds 0x81, writing 0x01 leaves 0x80. -/
theorem test_ackIr : historyOf (.ackIr 0x01) State.reset = some [.w8 0x0015 0x01] ∧
    ((Device.reset.store Config.default 0x0015 0x81).take Config.default 0x0015 0x01).held Config.default 0x0015 = some 0x80 := by decide

theorem test_readSr : historyOf .readSr (answering [0x42]) = some [.r8 0x0403 0x42] := by decide

theorem test_readIr : historyOf .readIr (answering [0x81]) = some [.r8 0x0015 0x81] := by decide

theorem test_readS0Ir : historyOf .readS0Ir (answering [0x14]) = some [.r8 0x0402 0x14] := by decide

/-! Requests, one step each (R154). -/

theorem test_init : (nextOf (exec .init State.reset)).map State.pc = some [.i1] ∧
    (nextOf (exec .init State.reset)).map State.act = some .inInit := by decide

/-- V54. -/
theorem test_init_refused : (nextOf (exec .init (loaded 0 []))).map State.refused = some (some .alreadyInitialised) := by decide

theorem test_pollOnce : (nextOf (exec .pollOnce (loaded 0 []))).map State.pc = some [.p1] := by decide

/-- V52. -/
theorem test_pollOnce_refused : (nextOf (exec .pollOnce State.reset)).map State.refused = some (some .notInitialised) ∧
    historyOf .pollOnce State.reset = some [] := by decide

/-- V58: TRANSMIT from inside the callout is nested. -/
theorem test_transmit_nested : (nextOf (exec .transmit (callout []))).map State.act = some .inNestedTransmit ∧
    (nextOf (exec .transmit (callout []))).map State.pc = some [.t1, .dispatch, .d8] := by decide

/-- V50. -/
theorem test_transmit_unwritten :
    (nextOf (exec .transmit { State.reset with mode := .rawActive })).map State.fault = some (some .unwrittenRead) := by decide

/-- V55. -/
theorem test_reservedRequest : (nextOf (exec (.reservedRequest 0xFF) State.reset)).map State.refused = some (some .reservedRequest) ∧
    historyOf (.reservedRequest 0xFF) State.reset = some [] := by decide

/-! The internal operations, one step each. -/

theorem test_receiveDrain : (nextOf (exec .receiveDrain (lineAt .rawActive .inPoll [.p4] []))).map State.pc = some [.d1] := by decide

/-- The RX bank with a cursor and a size. -/
def receiving (p n : Word) (bs : List Byte) : State :=
  { lineAt .rawActive .inPoll [.d4] bs with rx := { RxBank.unwritten with rcur := some p, size := some n, drop := some false } }

/-- The TX bank with a write pointer and a length, over a loaded buffer. -/
def sending (p n : Word) (bs : List Byte) : State :=
  { loaded n bs with act := .inTransmit, pc := [.t5], tx := { TxBank.unwritten with wr0 := some p, tlen := some n } }

/-- P2, frames 7 to 10: the physical wrap at 0x67FF. -/
theorem test_copyIn : (after 4 .copyIn (receiving 0x07FE 4 [0xDE, 0xAD, 0xBE, 0xEF])).map (fun t => (t.h, t.fb)) =
    some ([.r8 0x67FE 0xDE, .r8 0x67FF 0xAD, .r8 0x6000 0xBE, .r8 0x6001 0xEF],
      [(0, 0xDE), (1, 0xAD), (2, 0xBE), (3, 0xEF)]) := by decide

/-- P4, frames 7 to 9: the physical wrap, with the logical pointer wrapping too. -/
theorem test_copyOut : (after 3 .copyOut (sending 0xFFFE 3 [0x11, 0x22, 0x33])).map State.h =
    some [.w8 0x47FE 0x11, .w8 0x47FF 0x22, .w8 0x4000 0x33] := by decide

/-- V49: an unwritten byte faults before its frame. -/
theorem test_copyOut_unwritten : (after 1 .copyOut (sending 0x0000 2 [0x07])).map (fun t => (t.h, t.fault)) =
    some ([.w8 0x4000 0x07], some .unwrittenRead) := by decide

/-- P2's callout. -/
theorem test_dispatch : historyOf .dispatch (loaded 4 [0xDE, 0xAD, 0xBE, 0xEF]) = some [.dispatch 4 [0xDE, 0xAD, 0xBE, 0xEF]] ∧
    (nextOf (exec .dispatch (loaded 4 [0xDE, 0xAD, 0xBE, 0xEF]))).map State.act = some .inDispatch := by decide

/-- V34's callout of an empty frame. -/
theorem test_dispatch_empty : historyOf .dispatch (loaded 0 []) = some [.dispatch 0 []] := by decide

/-! The ring functions. -/

/-- V13 to V15. -/
theorem test_phys : phys 0x4000 0x07FF 0x07FE = 0x47FE ∧ phys 0x4000 0x07FF 0xFFFF = 0x47FF ∧ phys 0x6000 0x07FF 0x0802 = 0x6002 := by decide

/-- V16 and V17. -/
theorem test_nextCursor : nextCursor 0x4000 0x07FF 0x47FE = 0x47FF ∧ nextCursor 0x4000 0x07FF 0x47FF = 0x4000 ∧
    nextCursor 0x4000 0x07FF 0x4000 = 0x4001 ∧ nextCursor 0x5000 0x0000 0x5000 = 0x5000 := by decide

/-! The host's probe, and the step from reset. -/

/-- An operation placed for the next step is run by it. -/
theorem test_withFetchWord :
    (nextOf (step (State.reset.withFetchWord 32 0xF0000080))).map State.h = some [.w8 0x0000 0x80] := by decide

/-- With nothing asked of it the engine stays as reset left it. -/
theorem test_idle : nextOf (step State.reset) = some State.reset := by decide

/-! A witness for every obligation with hypotheses, named after it. -/

theorem witness_DecodeEncodeRoundTrip : (Instr.write8 0xFFFF 0xFF).wf RegMap.default = true ∧ Instr.init.wf RegMap.default = true ∧
    (Instr.read16 0xFFFF).wf RegMap.default = true := by decide

theorem witness_DecodedFrameMeansTheSame : State.reset.cfg.opRead ≠ State.reset.cfg.opWrite ∧ (Instr.ackIr 0x00).port = .bus := by decide

theorem witness_TableWordsDecode : (0x00 : Byte) ≠ Config.default.opRead ∧ (0x00 : Byte) ≠ Config.default.opWrite := by decide

theorem witness_NamedWritesAreTheirFrameWords : State.reset.cfg = Config.default := by decide

theorem witness_Read16IsTwoReadFrames : (answering [0x07, 0xFE]).free = true := by decide

theorem witness_Write16IsTwoWriteFrames : State.reset.free = true := by decide

theorem witness_DeviceMayAnswerAnyByte : (answering [0xFF]).device.turns = answerTurn 0xFF :: [] := by decide

theorem witness_ReadingClearsNothing : (∀ x ∈ (answering [0x81]).device.turns.head?, x.changes = []) ∧
    ∃ t, exec (.read8 0x0015) (answering [0x81]) = .next t := ⟨by decide, _, rfl⟩

theorem witness_WriteOneClearsTheFlag : Config.default.regmap.aIr ≠ Config.default.regmap.aMr ∧
    Device.reset.held Config.default Config.default.regmap.aIr = some 0x00 ∧
    s0Ir Config.default.regmap ≠ Config.default.regmap.aMr ∧
    (Device.reset.store Config.default 0x0402 0xFF).held Config.default (s0Ir Config.default.regmap) = some 0xFF := by decide

theorem witness_WriteFrameTouchesOneAddress :
    (¬((0x47FE : Word) = State.reset.cfg.regmap.aMr ∧ flagSet 0xA1 State.reset.cfg.regmap.mrRst = true) ∧
      (0x47FE : Word) ≠ State.reset.cfg.regmap.aIr ∧ (0x47FE : Word) ≠ s0Ir State.reset.cfg.regmap ∧
      deviceOwned State.reset.cfg.regmap 0x47FE = false) ∧
    ∃ t, exec (.write8 0x47FE 0xA1) State.reset = .next t := ⟨by decide, _, rfl⟩

/-- The clause about a register the device owns: the low byte of S0_TX_RD. -/
theorem witness_WriteFrameTouchesOneAddress_owned :
    (¬((0x0423 : Word) = State.reset.cfg.regmap.aMr ∧ flagSet 0xA1 State.reset.cfg.regmap.mrRst = true) ∧
      (0x0423 : Word) ≠ State.reset.cfg.regmap.aIr ∧ (0x0423 : Word) ≠ s0Ir State.reset.cfg.regmap ∧
      deviceOwned State.reset.cfg.regmap 0x0423 = true) ∧
    ∃ t, exec (.write8 0x0423 0xA1) State.reset = .next t := ⟨by decide, _, rfl⟩

theorem witness_SoftResetRestoresTheDevice : flagSet State.reset.cfg.regmap.mrRst State.reset.cfg.regmap.mrRst = true := by decide

/-- The default window, the one-byte window and the largest one. -/
theorem witness_CursorsStayInTheWindow : Config.validWindow 0x4000 0x07FF = true ∧ Config.validWindow 0xFFFF 0x0000 = true ∧
    Config.validWindow 0x0000 0x7FFF = true ∧ (0x07FE : Word) &&& 0x07FF = 0xFFFE &&& 0x07FF ∧
    inWindow 0x4000 0x07FF 0x47FF = true := by decide

theorem witness_VisitSequence : Config.validWindow 0x4000 0x07FF = true ∧ inWindow 0x4000 0x07FF 0x4000 = true ∧
    inWindow 0x4000 0x07FF 0x47FF = true := by decide

theorem witness_LogicalWrapIsIndependent : Config.validWindow 0x6000 0x07FF = true := by decide

/-- V37's frame of exactly CAP bytes. -/
theorem witness_CopyInReadsTheRing : (receiving 0x0000 16 []).free = true ∧ (receiving 0x0000 16 []).cfg.valid = true ∧ (receiving 0x0000 16 []).rx.rcur = some 0x0000 ∧
    (receiving 0x0000 16 []).rx.size = some 16 ∧ (16 : Word) ≤ (receiving 0x0000 16 []).cfg.cap := by decide

theorem holds_bufferOf : (sending 0xFFFE 3 [0x11, 0x22, 0x33]).fbHolds [0x11, 0x22, 0x33] := by
  intro i hi
  match i, hi with
  | 0, _ => rfl
  | 1, _ => rfl
  | 2, _ => rfl

theorem witness_CopyOutWritesTheRing : ((sending 0xFFFE 3 [0x11, 0x22, 0x33]).free = true ∧
      (sending 0xFFFE 3 [0x11, 0x22, 0x33]).cfg.valid = true ∧
      (sending 0xFFFE 3 [0x11, 0x22, 0x33]).tx.wr0 = some 0xFFFE ∧ (sending 0xFFFE 3 [0x11, 0x22, 0x33]).tx.tlen = some 3 ∧
      (3 : Word) ≤ (sending 0xFFFE 3 [0x11, 0x22, 0x33]).cfg.cap ∧ ([0x11, 0x22, 0x33] : List Byte).length = (3 : Word).toNat) ∧
    (sending 0xFFFE 3 [0x11, 0x22, 0x33]).fbHolds [0x11, 0x22, 0x33] := ⟨by decide, holds_bufferOf⟩

/-- Stopping at an unwritten byte (V49's kind): the first byte of an unwritten buffer. -/
theorem witness_CopyOutStopsAtTheMissingByte : ((sending 0 2 []).free = true ∧ (sending 0 2 []).cfg.valid = true ∧ (sending 0 2 []).tx.wr0 = some 0 ∧
      (sending 0 2 []).tx.tlen = some 2 ∧ ([] : List Byte).length < (2 : Word).toNat ∧
      ([] : List Byte).length ≤ (sending 0 2 []).cfg.cap.toNat ∧ (sending 0 2 []).readFb ([] : List Byte).length = none) ∧
    (sending 0 2 []).fbHolds [] := ⟨by decide, fun _ h => absurd h (Nat.not_lt_zero _)⟩

/-- Stopping at FB[CAP] (V48's kind, with CAP = 1). -/
def bounded : State := { sending 0 2 [0xAA] with cfg := { Config.default with cap := 1 } }

theorem witness_CopyOutStopsAtTheMissingByte_bounds : (bounded.free = true ∧ bounded.cfg.valid = true ∧ bounded.tx.wr0 = some 0 ∧
      bounded.tx.tlen = some 2 ∧ ([0xAA] : List Byte).length < (2 : Word).toNat ∧
      ([0xAA] : List Byte).length = bounded.cfg.cap.toNat) ∧ bounded.fbHolds [0xAA] := by
  refine ⟨by decide, ?_⟩
  intro i hi
  match i, hi with
  | 0, _ => rfl

theorem witness_UnwrittenReadRaises : State.reset.rx.rcur = none ∧ State.reset.rx.size = none ∧ State.reset.tx.wr0 = none ∧
    State.reset.tx.tlen = none ∧ (idleWith []).len = none ∧ (idleWith []).act = .idle ∧ (idleWith []).mode = .rawActive := by decide

/-- Each line that reads a register, at rest with nothing written; and a copy under way with nothing written. -/
theorem witness_UnwrittenReadRaises_lines :
    (∀ x ∈ ([(.inInit, .i3), (.inInit, .i7), (.inPoll, .p2), (.inPoll, .p3), (.inPoll, .p4), (.inPoll, .p5), (.inPoll, .d3),
        (.inPoll, .d4), (.inPoll, .d5), (.inPoll, .d8), (.inTransmit, .t1), (.inTransmit, .t3), (.inTransmit, .t6)] :
        List (Act × Label)),
      (lineAt .rawActive x.1 [x.2] []).restsAt x.2 = true ∧ x.2.reads (lineAt .rawActive x.1 [x.2] []) = false) ∧
    (∀ r ∈ ([.copyIn, .copyOut] : List Pending), { State.reset with pending := some r }.undisturbed = true) := by decide

theorem witness_InadmissibleRequestsAreRefused : (callout []).act ≠ .idle ∧ (callout []).act = .inDispatch ∧
    (lineAt .rawActive .inPoll [.p1] []).act ≠ .idle ∧ (lineAt .rawActive .inPoll [.p1] []).act ≠ .inDispatch ∧
    (idleWith []).act = .idle ∧ (idleWith []).mode = .rawActive ∧ State.reset.act = .idle ∧ State.reset.mode ≠ .rawActive ∧
    (0x00 : Byte) ≠ 0x01 ∧ (0x00 : Byte) ≠ 0x02 ∧ (0x00 : Byte) ≠ 0x03 := by decide

theorem witness_RequestsAreAdmitted : State.reset.act = .idle ∧ State.reset.mode ≠ .rawActive ∧ (loaded 3 []).act = .idle ∧
    (loaded 3 []).mode = .rawActive ∧ (loaded 3 []).len = some 3 ∧ (callout []).act = .inDispatch ∧
    (callout []).mode = .rawActive ∧ (callout []).len = some 4 := by decide

theorem witness_DispatchCallsOut : ((loaded 0 []).len = some 0 ∧ (0 : Word) ≤ (loaded 0 []).cfg.cap ∧
      ([] : List Byte).length = (0 : Word).toNat) ∧ (loaded 0 []).fbHolds [] ∧
    ((sending 0xFFFE 3 [0x11, 0x22, 0x33]).len = some 3 ∧ (3 : Word) ≤ (sending 0xFFFE 3 [0x11, 0x22, 0x33]).cfg.cap) ∧
    (sending 0xFFFE 3 [0x11, 0x22, 0x33]).fbHolds [0x11, 0x22, 0x33] :=
  ⟨by decide, fun _ h => absurd h (Nat.not_lt_zero _), by decide, holds_bufferOf⟩

theorem witness_SoftResetThenMask : (lineAt .reset .inInit [.i1] []).restsAt .i1 = true := by decide

theorem witness_NegotiationIteration : (lineAt .modeNegotiation .inInit [.i4] [0x00, 0x00, 0x42]).restsAt .i4 = true := by decide

/-- INIT at I7 with a status. -/
def judged (st : Byte) : State := { lineAt .modeNegotiation .inInit [.i7] [] with initBank := ⟨some st, some 1⟩ }

theorem witness_StatusDecidesNegotiation : (judged 0x42).restsAt .i7 = true ∧ (judged 0x42).initBank.st = some 0x42 ∧
    (0x42 : Byte) = (judged 0x42).cfg.regmap.ssrMacraw ∧ (judged 0x42).act = .inInit ∧ (judged 0x13).restsAt .i7 = true ∧
    (judged 0x13).initBank.st = some 0x13 ∧ (0x13 : Byte) ≠ (judged 0x13).cfg.regmap.ssrMacraw := by decide

/-- INIT at I3 under a bound (V22, V23). -/
def negotiating (bound : Option Nat) (n : Nat) : State :=
  { lineAt .modeNegotiation .inInit [.i3] [] with cfg := { Config.default with negBound := bound }, initBank := ⟨none, some n⟩ }

theorem witness_NegotiationBound : (negotiating (some 0) 0).restsAt .i3 = true ∧ (negotiating (some 0) 0).initBank.nneg = some 0 ∧
    (negotiating (some 0) 0).cfg.negBound = some 0 ∧ (negotiating (some 0) 0).act = .inInit ∧
    (negotiating (some 1) 0).restsAt .i3 = true ∧ (negotiating (some 1) 0).initBank.nneg = some 0 ∧
    (negotiating (some 1) 0).cfg.negBound ≠ some 0 ∧ (negotiating none 0).cfg.negBound ≠ some 0 := by decide

/-- V21: one status that is not raw, then the raw code, at the device's turns 5 and 9. -/
def bootTurns : List DeviceTurn :=
  [0x00, 0x00, 0x13, 0x00, 0x00, 0x00, 0x42].map answerTurn

def booting : State :=
  { State.reset with op := some .init, device := ⟨[], answerTurn 0x00 :: answerTurn 0x00 :: bootTurns, 0⟩ }

/-- With no bound, and with the least bound that lets the second iteration be. -/
theorem witness_NegotiationCounts : booting.runsNext .init = true ∧ booting.act = .idle ∧ booting.mode ≠ .rawActive ∧
    booting.cfg.negBound = none ∧ (∀ b, some 2 = some b → ([0x13] : List Byte).length < b) ∧
    (∀ st ∈ ([0x13] : List Byte), st ≠ booting.cfg.regmap.ssrMacraw) ∧
    booting.device.turns = answerTurn 0x00 :: answerTurn 0x00 :: bootTurns ∧
    statusAnswers booting.cfg.regmap [0x13] bootTurns = true := by
  refine ⟨by decide, by decide, by decide, by decide, ?_, by decide, by decide, by decide⟩
  rintro b ⟨⟩
  decide

/-- POLL_ONCE at P1 before a device that answers `v` (V26, V27). -/
def polling (v : Byte) : State := lineAt .rawActive .inPoll [.p1] [v]

theorem witness_PollFastPath : (polling 0x00).restsAt .p1 = true ∧ (polling 0x00).act = .inPoll ∧
    ((polling 0x00).device.read (polling 0x00).cfg (polling 0x00).cfg.regmap.aIr).1 = 0x00 := by decide

theorem witness_AlarmOnlyPoll : (polling 0x80).restsAt .p1 = true ∧ (polling 0x80).act = .inPoll ∧
    ((polling 0x80).device.read (polling 0x80).cfg (polling 0x80).cfg.regmap.aIr).1 = 0x80 ∧ (0x80 : Byte) ≠ 0x00 ∧
    flagSet 0x80 (polling 0x80).cfg.regmap.irS0 = false := by decide

/-- POLL_ONCE at a label with both snapshots. -/
def snapshots (l : Label) (ir sir : Byte) : State := { lineAt .rawActive .inPoll [l] [] with poll := ⟨some ir, some sir⟩ }

theorem witness_ChannelReadIffBitSet : (polling 0x81).restsAt .p1 = true ∧
    ((polling 0x81).device.read (polling 0x81).cfg (polling 0x81).cfg.regmap.aIr).1 = 0x81 ∧ (0x81 : Byte) ≠ 0x00 ∧
    (snapshots .p2 0x01 0x00).restsAt .p2 = true ∧ (snapshots .p2 0x01 0x00).poll.ir = some 0x01 ∧
    flagSet 0x01 (snapshots .p2 0x01 0x00).cfg.regmap.irS0 = true ∧ (snapshots .p2 0x80 0x00).restsAt .p2 = true ∧
    flagSet 0x80 (snapshots .p2 0x80 0x00).cfg.regmap.irS0 = false := by decide

theorem witness_SendCompleteIsAcknowledged : (snapshots .p3 0x01 0x10).restsAt .p3 = true ∧
    (snapshots .p3 0x01 0x10).poll.sir = some 0x10 ∧ flagSet 0x10 RegMap.default.sirSendOk = true ∧
    (snapshots .p3 0x01 0x08).restsAt .p3 = true ∧ flagSet 0x08 RegMap.default.sirSendOk = false := by decide

theorem witness_ReceiveServiceAndWriteBack : (snapshots .p4 0x01 0x04).restsAt .p4 = true ∧
    (snapshots .p4 0x01 0x04).poll.sir = some 0x04 ∧ flagSet 0x04 RegMap.default.sirRecv = true ∧
    (snapshots .p4 0x01 0x10).restsAt .p4 = true ∧ flagSet 0x10 RegMap.default.sirRecv = false ∧
    (snapshots .p5 0x81 0x14).restsAt .p5 = true ∧ (snapshots .p5 0x81 0x14).poll.ir = some 0x81 ∧
    (snapshots .p5 0x81 0x14).act = .inPoll := by decide

/-- RECEIVE_DRAIN at D1 before a device that reports a received size and a read pointer. -/
def draining (bs : List Byte) : State := lineAt .rawActive .inPoll [.d1] bs

theorem witness_FrameSizeAndCursor : (draining [0x00, 0x06, 0x07, 0xFC]).restsAt .d1 = true := by decide

/-- V38: 17 bytes and CAP 16. -/
theorem witness_OversizedFrameIsDropped : (draining [0x00, 0x13, 0xFF, 0xF0]).restsAt .d1 = true ∧
    (draining [0x00, 0x13, 0xFF, 0xF0]).cfg.cap <
      (draining [0x00, 0x13, 0xFF, 0xF0]).device.wordAnswer Config.default (s0RxRsr RegMap.default) - Config.default.rxHdr := by
  decide

/-- V37: 16 bytes and CAP 16. -/
theorem witness_FrameIsDrainedThenDispatched : (draining [0x00, 0x12, 0xFF, 0xFE]).restsAt .d1 = true ∧
    (draining [0x00, 0x12, 0xFF, 0xFE]).cfg.valid = true ∧
    (16 : Word) =
      (draining [0x00, 0x12, 0xFF, 0xFE]).device.wordAnswer Config.default (s0RxRsr RegMap.default) - Config.default.rxHdr ∧
    (16 : Word) ≤ (draining [0x00, 0x12, 0xFF, 0xFE]).cfg.cap := by decide

/-- RECEIVE_DRAIN at a label under a setting of RECV_ACK_POINT (V39). -/
def acking (l : Label) (p : AckPoint) : State :=
  { lineAt .rawActive .inPoll [l] [] with cfg := { Config.default with recvAckPoint := p } }

theorem witness_ReceiveReadyAcknowledgedAtOnePoint : (acking .d7 .beforeDispatch).restsAt .d7 = true ∧
    (acking .d7 .afterDispatch).restsAt .d7 = true ∧ (acking .d9 .afterDispatch).restsAt .d9 = true ∧
    (acking .d9 .beforeDispatch).restsAt .d9 = true ∧ (acking .d7 .beforeDispatch).cfg.recvAckPoint = .beforeDispatch ∧
    (acking .d7 .afterDispatch).cfg.recvAckPoint = .afterDispatch := by decide

theorem witness_FrameDispatchLiberties : (callout [.writeFb 15 0xAA]).restsAt .dispatch = true ∧ (callout []).act = .inDispatch ∧
    (callout []).mode = .rawActive ∧ (callout [.writeFb 15 0xAA]).dispatch = .writeFb 15 0xAA :: [] ∧
    (15 : Word) < (callout []).cfg.cap ∧ (callout [.writeLen 0xFFFF]).dispatch = .writeLen 0xFFFF :: [] ∧
    (callout [.request 0x03]).dispatch = .request 0x03 :: [] ∧ (callout [.request 0x03]).len = some 4 ∧
    (callout [.request 0x01]).dispatch = .request 0x01 :: [] ∧ (callout [.writeFb 16 0xAA]).restsAt .dispatch = true ∧
    (callout [.writeFb 16 0xAA]).dispatch = .writeFb 16 0xAA :: [] ∧ (callout []).cfg.cap ≤ 16 := by decide

theorem witness_CalloutWaitsAndReturns : (callout []).restsAt .dispatch = true ∧ (callout []).dispatch = [] ∧
    (callout [.ret]).restsAt .dispatch = true ∧ (callout [.ret]).pc = .dispatch :: .d8 :: [] ∧
    (callout [.ret]).dispatch = .ret :: [] ∧ (callout [.ret]).rx.drop = some false ∧ (callout [.ret]).rx.size = some 4 := by decide

/-- TRANSMIT at T1 with a length (V44, V45). -/
def transmitting (l : Label) (n : Word) (bound : Option Nat) (k : Nat) : State :=
  { lineAt .rawActive .inTransmit [l] [] with
    cfg := { Config.default with fsrBound := bound }, tx := { TxBank.unwritten with tlen := some n, nfsr := some k } }

theorem witness_HostMovesAreTaken : (idleWith [.writeFb 15 0xAA]).running = true ∧ (idleWith [.writeFb 15 0xAA]).op = none ∧
    (idleWith [.writeFb 15 0xAA]).pending = none ∧ (idleWith [.writeFb 15 0xAA]).pc = [] ∧ (15 : Word) < (idleWith []).cfg.cap ∧
    (idleWith [.writeFb 16 0xAA]).running = true ∧ (idleWith []).cfg.cap ≤ 16 ∧ (idleWith [.writeLen 3]).running = true ∧
    (idleWith [.request 0x03]).running = true ∧ { callout [] with host := [.requestNow 0x01] }.running = true ∧
    (callout []).act ≠ .idle ∧ { transmitting .t3 3 none 1 with host := [.requestNow 0x03] }.running = true ∧
    (transmitting .t3 3 none 1).act ≠ .inDispatch ∧ (transmitting .t3 3 none 1).act ≠ .idle := by decide

/-- A TRANSMIT inside the callout at a label. -/
def nested (l : Label) : State :=
  { lineAt .rawActive .inNestedTransmit [l, .dispatch, .d8] [] with tx := { TxBank.unwritten with tlen := some 4 } }

theorem witness_NestedTransmitKeepsTheBanks : ((nested .t1).controlFits = true ∧ (nested .t1).running = true ∧
    (nested .t1).act = .inNestedTransmit) ∧ ∃ t, step (nested .t1) = .next t := ⟨by decide, _, rfl⟩

theorem witness_OversizedTransmitIsAborted : (transmitting .t1 2049 none 0).restsAt .t1 = true ∧
    (transmitting .t1 2049 none 0).tx.tlen = some 2049 ∧
    (transmitting .t1 2049 none 0).cfg.txMask.toNat + 1 < (2049 : Word).toNat ∧ (transmitting .t1 2048 none 0).restsAt .t1 = true ∧
    (transmitting .t1 2048 none 0).tx.tlen = some 2048 ∧
    (2048 : Word).toNat ≤ (transmitting .t1 2048 none 0).cfg.txMask.toNat + 1 := by decide

/-- V47's bound of two reads: reached and not yet reached. -/
theorem witness_FreeSpaceWait : (transmitting .t3 2 (some 2) 2).restsAt .t3 = true ∧ (transmitting .t3 2 (some 2) 2).tx.tlen = some 2 ∧
    (transmitting .t3 2 (some 2) 2).tx.nfsr = some 2 ∧ (transmitting .t3 2 (some 2) 2).cfg.fsrBound = some 2 ∧
    (transmitting .t3 2 (some 2) 1).restsAt .t3 = true ∧ (transmitting .t3 2 (some 2) 1).tx.nfsr = some 1 ∧
    (transmitting .t3 2 (some 2) 1).cfg.fsrBound ≠ some 1 := by decide

/-- P4's host transmit, the free size one byte short at the first read and just enough at the second, under FSR_BOUND = 2. -/
def requested : State :=
  { loaded 3 [0x11, 0x22, 0x33] with
    cfg := { Config.default with fsrBound := some 2 }, op := some .transmit,
    device := ⟨[], [0x00, 0x02, 0x00, 0x03].map answerTurn, 0⟩ }

/-- The same from inside the callout (V58). -/
def nestedRequest : State := { requested with act := .inDispatch, pc := [.dispatch, .d8] }

theorem holds_requested : requested.fbHolds [0x11, 0x22, 0x33] ∧ nestedRequest.fbHolds [0x11, 0x22, 0x33] := by
  refine ⟨fun i hi => ?_, fun i hi => ?_⟩ <;>
  · match i, hi with
    | 0, _ => rfl
    | 1, _ => rfl
    | 2, _ => rfl

theorem witness_TransmitSendsTheFrame :
    (requested.runsNext .transmit = true ∧ requested.act = .idle ∧ nestedRequest.runsNext .transmit = true ∧
      nestedRequest.act = .inDispatch ∧ requested.mode = .rawActive ∧ nestedRequest.mode = .rawActive ∧ requested.cfg.valid = true) ∧
    (requested.len = some 3 ∧ nestedRequest.len = some 3 ∧ (3 : Word) ≤ requested.cfg.cap ∧
      (3 : Word).toNat ≤ requested.cfg.txMask.toNat + 1 ∧ ([0x11, 0x22, 0x33] : List Byte).length = (3 : Word).toNat) ∧
    (requested.device.polls requested.cfg (s0TxFsr requested.cfg.regmap) ([(0x00, 0x02)].length + 1) =
        [(0x00, 0x02)] ++ [(0x00, 0x03)]) ∧
    ((∀ x ∈ ([(0x00, 0x02)] : List (Byte × Byte)), concatBytes x.1 x.2 < 3) ∧ (3 : Word) ≤ concatBytes 0x00 0x03 ∧
      requested.cfg.fsrBound = some 2 ∧ [((0x00 : Byte), (0x02 : Byte))].length < 2) ∧
    requested.fbHolds [0x11, 0x22, 0x33] ∧ nestedRequest.fbHolds [0x11, 0x22, 0x33] :=
  ⟨by decide, by decide, rfl, by rw [List.forall_mem_singleton]; decide, holds_requested⟩

theorem witness_StepRunsTheIssuedOperation : requested.running = true ∧ requested.presentedNow = none ∧
    requested.op = some .transmit ∧ requested.pending = none ∧ (idleWith []).running = true ∧ (idleWith []).presentedNow = none ∧
    (idleWith []).op = none ∧ (idleWith []).pending = none ∧ decodeTableWord 8 0x01 = some .init ∧
    { sending 0 2 [0x07] with pending := some .copyOut }.running = true := by decide

theorem witness_MarksStopTheEngine : (State.reset.raise .unwrittenRead).resetAsserted = false ∧
    (State.reset.raise .unwrittenRead).fault = some .unwrittenRead ∧ (State.reset.refuse .reentered).resetAsserted = false ∧
    (State.reset.refuse .reentered).fault = none ∧ (State.reset.refuse .reentered).refused = some .reentered := by decide

theorem witness_EngineReset : (idleWith [.reset]).host = .reset :: [] := by decide

theorem witness_ConfigurationIsNeverWritten : ∃ t, step requested = .next t := ⟨_, rfl⟩

theorem witness_HistoryOnlyGrows : booting.running = true ∧ ∃ t, step booting = .next t := ⟨by decide, _, rfl⟩

/-- INIT at I2 with the mask written, and at I7 with the raw-frame code: the two places where the mode changes. -/
def masked : State := { lineAt .reset .inInit [.i2] [] with opResult := .done }

theorem witness_ModeOnlyAdvances : (masked.controlFits = true ∧ masked.running = true) ∧
    (∃ t, step masked = .next t ∧ t.mode ≠ masked.mode) ∧ ((judged 0x42).controlFits = true ∧ (judged 0x42).running = true) ∧
    ∃ t, step (judged 0x42) = .next t ∧ t.mode ≠ (judged 0x42).mode :=
  ⟨by decide, ⟨_, rfl, by decide⟩, by decide, ⟨_, rfl, by decide⟩⟩

theorem witness_ControlIsKept : (judged 0x13).controlled = true ∧ ∃ t, step (judged 0x13) = .next t := ⟨by decide, _, rfl⟩

theorem witness_ResetMeetsTheInvariants : Device.reset.spaceFits Config.default = true := by decide

theorem witness_MemoryFormIsKept : requested.memoryFits = true ∧ ∃ t, step requested = .next t := ⟨by decide, _, rfl⟩

theorem witness_WireCarriesTheHistory : requested.wireFits ∧ ∃ t, step requested = .next t := ⟨⟨rfl, rfl⟩, _, rfl⟩

/-- A controlled engine about to issue CMD_CLOSE. -/
def closing : State := { lineAt .modeNegotiation .inInit [.i8] [] with initBank := ⟨some 0x13, some 1⟩, op := some .cmdClose }

theorem witness_TrafficStaysAllowed : (closing.controlled = true ∧ closing.h.all (eventAllowed closing.cfg) = true) ∧
    ∃ t, step closing = .next t := ⟨by decide, _, rfl⟩

/-- A host TRANSMIT with LEN unwritten. -/
def faulting : State := { idleWith [] with op := some .transmit }

/-- COPY_OUT under way after `k` bytes of `s`. -/
def copyingOut (s : State) (k : Word) : State :=
  { s with pending := some .copyOut, tx := { s.tx with tpa := some (0x4000 + k), ti := some k } }

/-- The steps that fault from a controlled state: LEN unwritten at TRANSMIT, issued and at once, FB unwritten at
COPY_OUT's first byte and at a later one, and FB[CAP]. -/
theorem witness_FaultsComeFromTheTransmitSideOnly :
    ((faulting.controlled = true ∧ faulting.cfg.valid = true ∧ faulting.fault = none) ∧
      ∃ t, step faulting = .next t ∧ t.fault = some .unwrittenRead) ∧
    ((idleWith [.requestNow 0x03]).controlled = true ∧
      ∃ t, step (idleWith [.requestNow 0x03]) = .next t ∧ t.fault = some .unwrittenRead) ∧
    (({ sending 0 2 [] with op := some .copyOut }.controlled = true) ∧
      ∃ t, step { sending 0 2 [] with op := some .copyOut } = .next t ∧ t.fault = some .unwrittenRead) ∧
    ((copyingOut (sending 0 2 [0x07]) 1).controlled = true ∧
      ∃ t, step (copyingOut (sending 0 2 [0x07]) 1) = .next t ∧ t.fault = some .unwrittenRead) ∧
    ((copyingOut bounded 1).controlled = true ∧ (copyingOut bounded 1).cfg.valid = true) ∧
      ∃ t, step (copyingOut bounded 1) = .next t ∧ t.fault = some .frameBufferBounds :=
  ⟨⟨by decide, _, rfl, by decide⟩, ⟨by decide, _, rfl, by decide⟩, ⟨by decide, _, rfl, by decide⟩, ⟨by decide, _, rfl, by decide⟩,
    by decide, _, rfl, by decide⟩

/-- A reset between the two frames of P4's first READ16, the fifth step. -/
theorem witness_ResetAbandonsTheRequest :
    { requested with host := List.replicate 5 HostMove.pause ++ [HostMove.reset] }.host = List.replicate 5 HostMove.pause ++ .reset :: [] ∧
    (nextOf (run 5 { requested with host := [] })).map State.pending = some (some (.read16Low 0x0421 0x00)) := by decide

end Sys2Proof.Tests
end

/-! PROOFS. What one move does to the outside of the engine, said once: the configuration, the frame buffer, the history,
the bus port and the device (R15). The invariants of both memories, of the bus record and of the history follow from it. -/

namespace Sys2Proof.Machine

/-- One move's traffic: none, an event that is no bus frame, one read frame or one write frame (R15, R29). -/
def State.portEffect (s t : State) : Prop :=
  (t.h = s.h ∧ t.bus = s.bus ∧ t.device = s.device) ∨
  (∃ e : Event, e.acts s.cfg = [] ∧ t.h = s.h ++ [e] ∧ t.bus = s.bus ∧ t.device = s.device) ∨
  (∃ a, t.h = (busRead a s).2.h ∧ t.bus = (busRead a s).2.bus ∧ t.device = (busRead a s).2.device) ∨
  (∃ a d, t.h = (busWrite a d s).h ∧ t.bus = (busWrite a d s).bus ∧ t.device = (busWrite a d s).device)

/-- What one move of a running machine leaves of the engine's outside: the configuration as it is, at most one byte of the
frame buffer written, and that inside CAP, and at most one frame of traffic. -/
structure MoveEffect (s t : State) : Prop where
  cfg : t.cfg = s.cfg
  fb : t.fb = s.fb ∨ ∃ (i : Word) (b : Byte), i < s.cfg.cap ∧ t.fb = Memory.write fbUnlisted s.fb i.toNat b
  port : s.portEffect t

/-- A move without traffic that leaves the frame buffer. -/
theorem MoveEffect.quiet {s t : State} (hc : t.cfg = s.cfg) (hf : t.fb = s.fb)
    (hp : t.h = s.h ∧ t.bus = s.bus ∧ t.device = s.device) : MoveEffect s t := ⟨hc, .inl hf, .inl hp⟩

/-- A move that appends an event of no bus frame. -/
theorem MoveEffect.event {s t : State} (e : Event) (he : e.acts s.cfg = []) (hc : t.cfg = s.cfg) (hf : t.fb = s.fb)
    (hp : t.h = s.h ++ [e] ∧ t.bus = s.bus ∧ t.device = s.device) : MoveEffect s t :=
  ⟨hc, .inl hf, .inr (.inl ⟨e, he, hp⟩)⟩

/-- A move that is one read frame. -/
theorem MoveEffect.read {s t : State} (a : Word) (hc : t.cfg = s.cfg) (hf : t.fb = s.fb)
    (hp : t.h = (busRead a s).2.h ∧ t.bus = (busRead a s).2.bus ∧ t.device = (busRead a s).2.device) : MoveEffect s t :=
  ⟨hc, .inl hf, .inr (.inr (.inl ⟨a, hp⟩))⟩

/-- A move that is one write frame. -/
theorem MoveEffect.write {s t : State} (a : Word) (d : Byte) (hc : t.cfg = s.cfg) (hf : t.fb = s.fb)
    (hp : t.h = (busWrite a d s).h ∧ t.bus = (busWrite a d s).bus ∧ t.device = (busWrite a d s).device) :
    MoveEffect s t := ⟨hc, .inl hf, .inr (.inr (.inr ⟨a, d, hp⟩))⟩

/-- An agent's write inside the frame buffer. -/
theorem MoveEffect.writeFb {s t : State} {i : Word} (b : Byte) (hi : i < s.cfg.cap) (hc : t.cfg = s.cfg)
    (hf : t.fb = Memory.write fbUnlisted s.fb i.toNat b) (hp : t.h = s.h ∧ t.bus = s.bus ∧ t.device = s.device) :
    MoveEffect s t := ⟨hc, .inr ⟨i, b, hi, hf⟩, .inl hp⟩

/-- One turn of COPY_IN (R100). -/
theorem copyInTurn_effect {s t : State} (h : copyInTurn s = .next t) : MoveEffect s t := by
  rcases copyInTurn_cases h with ⟨_, rfl⟩ | ⟨n, pa, i, _, _, _, ⟨_, rfl⟩ | ⟨_, _, rfl⟩ | ⟨_, _, rfl⟩ | ⟨_, _, hi, rfl⟩⟩
  · exact .quiet rfl rfl ⟨rfl, rfl, rfl⟩
  · exact .quiet rfl rfl ⟨rfl, rfl, rfl⟩
  · exact .quiet rfl rfl ⟨rfl, rfl, rfl⟩
  · exact .quiet rfl rfl ⟨rfl, rfl, rfl⟩
  · exact ⟨rfl, .inr ⟨i, _, hi, rfl⟩, .inr (.inr (.inl ⟨pa, rfl, rfl, rfl⟩))⟩

/-- One turn of COPY_OUT (R101). -/
theorem copyOutTurn_effect {s t : State} (h : copyOutTurn s = .next t) : MoveEffect s t := by
  rcases copyOutTurn_cases h with
    ⟨_, rfl⟩ | ⟨n, pa, i, _, _, _, ⟨_, rfl⟩ | ⟨_, _, rfl⟩ | ⟨_, _, _, rfl⟩ | ⟨b, _, _, _, ⟨_, rfl⟩ | ⟨_, rfl⟩⟩⟩
  · exact .quiet rfl rfl ⟨rfl, rfl, rfl⟩
  · exact .quiet rfl rfl ⟨rfl, rfl, rfl⟩
  · exact .quiet rfl rfl ⟨rfl, rfl, rfl⟩
  · exact .quiet rfl rfl ⟨rfl, rfl, rfl⟩
  · exact .quiet rfl rfl ⟨rfl, rfl, rfl⟩
  · exact .write pa b rfl rfl ⟨rfl, rfl, rfl⟩

/-- An instruction's meaning (R92 to R95, R100, R101, R144, R153, R154). -/
theorem exec_effect {i : Instr} {s t : State} (h : exec i s = .next t) : MoveEffect s t := by
  rcases exec_cases h with ⟨r, rfl⟩ | ⟨r, rfl⟩ | ⟨a, rfl⟩ | ⟨a, d, rfl⟩ | ⟨a, _, rfl⟩ | ⟨a, v, _, rfl⟩ | ⟨_, _, _, rfl⟩ |
    ⟨_, _, _, rfl⟩ | ⟨n, _, _, _, _, rfl⟩ | ⟨_, rfl⟩ | ⟨n, bs, _, _, _, rfl⟩ | ⟨p, n, _, _, _, h⟩ | ⟨p, n, _, _, _, h⟩
  · exact .quiet rfl rfl ⟨rfl, rfl, rfl⟩
  · exact .quiet rfl rfl ⟨rfl, rfl, rfl⟩
  · exact .read a rfl rfl ⟨rfl, rfl, rfl⟩
  · exact .write a d rfl rfl ⟨rfl, rfl, rfl⟩
  · exact .read a rfl rfl ⟨rfl, rfl, rfl⟩
  · exact .write a (hiByte v) rfl rfl ⟨rfl, rfl, rfl⟩
  · exact .quiet rfl rfl ⟨rfl, rfl, rfl⟩
  · exact .quiet rfl rfl ⟨rfl, rfl, rfl⟩
  · exact .quiet rfl rfl ⟨rfl, rfl, rfl⟩
  · exact .quiet rfl rfl ⟨rfl, rfl, rfl⟩
  · exact .event (.dispatch n bs) rfl rfl rfl ⟨rfl, rfl, rfl⟩
  · obtain ⟨hc, hf, hp⟩ := copyInTurn_effect h
    exact ⟨hc, hf, hp⟩
  · obtain ⟨hc, hf, hp⟩ := copyOutTurn_effect h
    exact ⟨hc, hf, hp⟩

/-- The rest of an operation of several frames (R94, R95, R100, R101). -/
theorem resume_effect {r : Pending} {s t : State} (h : resume r s = .next t) : MoveEffect s t := by
  rcases resume_cases h with ⟨a, hi, _, rfl⟩ | ⟨a, lo, _, rfl⟩ | ⟨_, h⟩ | ⟨_, h⟩
  · exact .read a rfl rfl ⟨rfl, rfl, rfl⟩
  · exact .write a lo rfl rfl ⟨rfl, rfl, rfl⟩
  · exact copyInTurn_effect h
  · exact copyOutTurn_effect h

/-- The host's move while no reset is asserted (R148). -/
theorem hostMove_effect {s t : State} (hr : s.resetAsserted = false) (h : hostMove s = .next t) : MoveEffect s t := by
  rcases hostMove_cases h with rfl | rfl | ⟨code, rfl⟩ | ⟨i, b, hi, rfl⟩ | ⟨v, rfl⟩ | ⟨hr', _⟩
  · exact .quiet rfl rfl ⟨rfl, rfl, rfl⟩
  · exact .quiet rfl rfl ⟨rfl, rfl, rfl⟩
  · exact .quiet rfl rfl ⟨rfl, rfl, rfl⟩
  · exact .writeFb b hi rfl rfl ⟨rfl, rfl, rfl⟩
  · exact .quiet rfl rfl ⟨rfl, rfl, rfl⟩
  · simp [hr] at hr'

/-- Frame Dispatch's move inside the callout (R145, R146). -/
theorem dispatchMove_effect {s t : State} (h : dispatchMove s = .next t) : MoveEffect s t := by
  rcases dispatchMove_cases h with rfl | ⟨code, rfl⟩ | ⟨i, b, hi, rfl⟩ | ⟨v, rfl⟩ | rfl
  · exact .quiet rfl rfl ⟨rfl, rfl, rfl⟩
  · exact .quiet rfl rfl ⟨rfl, rfl, rfl⟩
  · exact .writeFb b hi rfl rfl ⟨rfl, rfl, rfl⟩
  · exact .quiet rfl rfl ⟨rfl, rfl, rfl⟩
  · exact .quiet rfl rfl ⟨rfl, rfl, rfl⟩

/-- The POLL, RX and INIT banks are as before. -/
@[simp] def sameBanks (s t : State) : Prop := t.poll = s.poll ∧ t.rx = s.rx ∧ t.initBank = s.initBank

/-- What a line of the sequencer can leave: no frame of its own and at most the event that ends its request; a fault only
where a register it reads is unwritten (R24); a new mode only at I2 and I7 (R113); and a line of TRANSMIT no register of
another bank (R150). -/
structure LineEffect (l : Label) (s t : State) : Prop where
  cfg : t.cfg = s.cfg
  fb : t.fb = s.fb
  bus : t.bus = s.bus
  device : t.device = s.device
  h : t.h = s.h ∨ ∃ r, t.h = s.h ++ [.ret r]
  fault : t.fault = s.fault ∨ l.reads s = false
  mode : t.mode = s.mode ∨ (l = .i2 ∧ t.mode = .modeNegotiation) ∨ (l = .i7 ∧ t.mode = .rawActive)
  banks : l.ofTransmit = true → sameBanks s t

/-- Every line of the sequencer (R107, R115, R125, R134). -/
theorem runLine_effect {l : Label} {s t : State} (hl : l ≠ .dispatch) (h : runLine l s = .next t) : LineEffect l s t := by
  cases l
  case dispatch => contradiction
  case i1 => rcases lineI1_next h with rfl | rfl <;> constructor <;> simp
  case i2 => rcases lineI2_next h with rfl | rfl <;> constructor <;> simp [Label.ofTransmit]
  case i3 =>
    rcases lineI3_next h with ⟨h0, rfl⟩ | ⟨n, _, rfl | rfl⟩ <;> constructor <;> simp [Label.ofTransmit, Label.reads, *]
  case i4 => rcases lineI4_next h with rfl | rfl <;> constructor <;> simp
  case i5 => rcases lineI5_next h with rfl | rfl <;> constructor <;> simp
  case i6 => rcases lineI6_next h with rfl | ⟨v, _, rfl⟩ <;> constructor <;> simp [Label.ofTransmit]
  case i7 =>
    rcases lineI7_next h with ⟨h0, rfl⟩ | ⟨v, _, rfl | rfl⟩ <;> constructor <;> simp [Label.ofTransmit, Label.reads, *]
  case i8 => rcases lineI8_next h with rfl | rfl <;> constructor <;> simp
  case p1 => rcases lineP1_next h with rfl | ⟨v, _, rfl | rfl⟩ <;> constructor <;> simp [Label.ofTransmit]
  case p2 =>
    rcases lineP2_next h with ⟨h0, rfl⟩ | rfl | ⟨v, _, rfl⟩ | rfl <;> constructor <;>
      simp [Label.ofTransmit, Label.reads, *]
  case p3 => rcases lineP3_next h with ⟨h0, rfl⟩ | rfl | rfl <;> constructor <;> simp [Label.reads, *]
  case p4 => rcases lineP4_next h with ⟨h0, rfl⟩ | rfl | rfl <;> constructor <;> simp [Label.reads, *]
  case p5 => rcases lineP5_next h with ⟨h0, rfl⟩ | ⟨v, _, rfl | rfl⟩ <;> constructor <;> simp [Label.reads, *]
  case d1 => rcases lineD1_next h with rfl | ⟨v, _, rfl⟩ <;> constructor <;> simp [Label.ofTransmit]
  case d2 => rcases lineD2_next h with rfl | ⟨v, _, rfl⟩ <;> constructor <;> simp [Label.ofTransmit]
  case d3 =>
    rcases lineD3_next h with ⟨h0, rfl⟩ | ⟨n, _, rfl⟩ <;> constructor <;> simp [Label.ofTransmit, Label.reads, *]
  case d4 => rcases lineD4_next h with ⟨h0, rfl⟩ | ⟨_, rfl⟩ | ⟨_, rfl⟩ <;> constructor <;> simp [Label.reads, *]
  case d5 =>
    rcases lineD5_next h with ⟨h0 | h0, rfl⟩ | ⟨rd0, n, _, _, rfl | rfl⟩ <;> constructor <;> simp [Label.reads, *]
  case d6 => rcases lineD6_next h with rfl | rfl <;> constructor <;> simp
  case d7 => rcases lineD7_next h with ⟨_, rfl⟩ | rfl <;> constructor <;> simp
  case d8 =>
    rcases lineD8_next h with ⟨h0 | h0, rfl⟩ | ⟨n, _, _, rfl⟩ | rfl <;> constructor <;> simp [Label.reads, *]
  case d9 => rcases lineD9_next h with ⟨_, rfl⟩ | rfl <;> constructor <;> simp
  case t1 => rcases lineT1_next h with ⟨h0, rfl⟩ | rfl | rfl <;> constructor <;> simp [Label.reads, *]
  case t2 => obtain rfl := lineT2_next h; constructor <;> simp
  case t3 =>
    rcases lineT3_next h with ⟨h0 | h0, rfl⟩ | rfl | rfl | ⟨k, n, v, _, _, _, rfl⟩ <;> constructor <;>
      simp [Label.reads, *]
  case t4 => rcases lineT4_next h with rfl | ⟨v, _, rfl⟩ <;> constructor <;> simp
  case t5 => rcases lineT5_next h with rfl | rfl <;> constructor <;> simp
  case t6 =>
    rcases lineT6_next h with ⟨h0 | h0, rfl⟩ | ⟨wr0, n, _, _, rfl | rfl⟩ <;> constructor <;> simp [Label.reads, *]
  case t7 => rcases lineT7_next h with rfl | rfl <;> constructor <;> simp

/-- A line's effect on the outside, Frame Dispatch's moves among them. -/
theorem runLine_moveEffect {l : Label} {s t : State} (h : runLine l s = .next t) : MoveEffect s t := by
  by_cases hl : l = .dispatch
  · subst hl
    exact dispatchMove_effect h
  · have e := runLine_effect hl h
    rcases e.h with hh | ⟨r, hh⟩
    · exact .quiet e.cfg e.fb ⟨hh, e.bus, e.device⟩
    · exact .event (.ret r) rfl e.cfg e.fb ⟨hh, e.bus, e.device⟩

/-- A running engine's reset input is not asserted. -/
theorem State.resetAsserted_of_running {s : State} (h : s.running = true) : s.resetAsserted = false := by
  simp only [State.running, Bool.and_eq_true, Bool.not_eq_true'] at h
  exact h.2

/-- One step of a running engine. -/
theorem nextMove_effect {s t : State} (hr : s.running = true) (h : nextMove s = .next t) : MoveEffect s t := by
  rcases nextMove_cases h with ⟨code, _, h⟩ | ⟨r, _, h⟩ | ⟨i, _, _, h⟩ | ⟨_, _, _, h⟩ | ⟨l, rest, _, _, _, h⟩
  · obtain ⟨hc, hf, hp⟩ := exec_effect h
    exact ⟨hc, hf, hp⟩
  · obtain ⟨hc, hf, hp⟩ := resume_effect h
    exact ⟨hc, hf, hp⟩
  · obtain ⟨hc, hf, hp⟩ := exec_effect h
    exact ⟨hc, hf, hp⟩
  · exact hostMove_effect (State.resetAsserted_of_running hr) h
  · obtain ⟨hc, hf, hp⟩ := runLine_moveEffect h
    exact ⟨hc, hf, hp⟩

/-- A step is the reset input, or a move with the effect a move can have. -/
theorem step_effect {s t : State} (h : step s = .next t) : t = s.takeReset ∨ MoveEffect s t := by
  rcases step_cases h with ⟨_, rfl⟩ | ⟨hr, h⟩
  · exact .inl rfl
  · exact .inr (nextMove_effect hr h)

/-! The invariants of the outside. -/

/-- Settles O51: the reset and every move leave the configuration. -/
theorem configurationIsNeverWritten : Obligations.ConfigurationIsNeverWritten := by
  intro s t h
  rcases step_effect h with rfl | e
  · rfl
  · exact e.cfg

/-- Settles O52: every move of a running engine leaves the history or appends one event to it. -/
theorem historyOnlyGrows : Obligations.HistoryOnlyGrows := by
  intro s t hr h
  rw [step_of_running hr] at h
  rcases (nextMove_effect hr h).port with ⟨hh, _⟩ | ⟨e, _, hh, _⟩ | ⟨a, hh, _⟩ | ⟨a, d, hh, _⟩ <;> rw [hh]
  · exact List.prefix_append _ _
  · exact List.prefix_append _ _
  · exact List.prefix_append _ _

theorem State.memoryFits_iff {s : State} : s.memoryFits = true ↔
    (Memory.wf fbUnlisted s.fb = true ∧ s.fb.all (fun c => decide (c.1 < s.cfg.cap.toNat)) = true) ∧
      s.device.spaceFits s.cfg = true := by
  simp [State.memoryFits, Device.spaceFits, and_assoc]

/-- The device's space keeps its form under a move's traffic. -/
theorem State.portEffect_spaceFits {s t : State} (h : s.portEffect t) (hd : s.device.spaceFits s.cfg = true) :
    t.device.spaceFits s.cfg = true := by
  rcases h with ⟨_, _, e⟩ | ⟨_, _, _, _, e⟩ | ⟨a, _, _, e⟩ | ⟨a, d, _, _, e⟩ <;> rw [e]
  · exact hd
  · exact hd
  · exact Device.read_spaceFits hd a
  · exact Device.write_spaceFits hd a d

/-- Settles O56: a move writes at most one byte of FB, inside CAP, and the device's space keeps its form under one frame. -/
theorem memoryFormIsKept : Obligations.MemoryFormIsKept := by
  intro s t hs h
  obtain ⟨⟨hwf, hcap⟩, hdev⟩ := State.memoryFits_iff.1 hs
  rcases step_effect h with rfl | e
  · exact State.memoryFits_iff.2 ⟨⟨rfl, rfl⟩, hdev⟩
  · have hd := State.portEffect_spaceFits e.port hdev
    refine State.memoryFits_iff.2 ⟨?_, by rwa [e.cfg]⟩
    rw [e.cfg]
    rcases e.fb with hf | ⟨i, b, hi, hf⟩ <;> rw [hf]
    · exact ⟨hwf, hcap⟩
    · exact ⟨Memory.wf_write hwf, Memory.all_write hcap (decide_eq_true (BitVec.lt_def.1 hi))⟩

/-- Settles O57: a move's traffic is one bracketed frame and its event, or no frame and at most one event without acts. -/
theorem wireCarriesTheHistory : Obligations.WireCarriesTheHistory := by
  intro s t hs h
  obtain ⟨hheld, hwire⟩ := hs
  rcases step_effect h with rfl | e
  · exact ⟨rfl, rfl⟩
  · unfold State.wireFits
    rw [e.cfg]
    rcases e.port with ⟨hh, hb, _⟩ | ⟨ev, hev, hh, hb, _⟩ | ⟨a, hh, hb, _⟩ | ⟨a, d, hh, hb, _⟩ <;> rw [hh, hb]
    · exact ⟨hheld, hwire⟩
    · exact ⟨hheld, by simp [hwire, hev]⟩
    · simp [Bus.frame_eq, hwire, Event.acts, readFrame]
    · simp [Bus.frame_eq, hwire, Event.acts, writeFrame]

end Sys2Proof.Machine

/-! PROOFS. The control invariant in parts: what the lines of the stack need, what the two latches hold, and how each named
operation of the state keeps them (R23, R24, R30, R103). -/

namespace Sys2Proof.Machine

/-! The windows (R9, R97, R98, R103). -/

/-- A valid window ends inside the address space (R9). -/
theorem Config.validWindow_end {base mask : Word} (h : Config.validWindow base mask = true) :
    base.toNat + mask.toNat ≤ 0xFFFF := by
  simp only [Config.validWindow, Bool.and_eq_true, decide_eq_true_eq] at h
  exact h.2

theorem inWindow_iff {base mask a : Word} (h : Config.validWindow base mask = true) :
    inWindow base mask a = true ↔ base.toNat ≤ a.toNat ∧ a.toNat ≤ base.toNat + mask.toNat := by
  have hend := Config.validWindow_end h
  have hsum : (base + mask).toNat = base.toNat + mask.toNat := by rw [BitVec.toNat_add]; omega
  simp [inWindow, BitVec.le_def, hsum]

/-- The cursor a copy starts at is inside its window (R97, R103). -/
theorem inWindow_phys {base mask : Word} (h : Config.validWindow base mask = true) (p : Word) :
    inWindow base mask (phys base mask p) = true := by
  have hend := Config.validWindow_end h
  have hand : (p &&& mask).toNat ≤ mask.toNat := by rw [BitVec.toNat_and]; exact Nat.and_le_right
  rw [inWindow_iff h, phys, BitVec.toNat_add]
  omega

/-- The cursor after a byte is inside the window again (R98, R103). -/
theorem inWindow_nextCursor {base mask a : Word} (h : Config.validWindow base mask = true)
    (ha : inWindow base mask a = true) : inWindow base mask (nextCursor base mask a) = true := by
  have hend := Config.validWindow_end h
  rw [inWindow_iff h] at ha ⊢
  unfold nextCursor
  split
  · omega
  · rename_i hne
    have hne' : a.toNat ≠ base.toNat + mask.toNat := fun e =>
      hne (BitVec.eq_of_toNat_eq (by rw [BitVec.toNat_add]; omega))
    have hone : (a + 1).toNat = a.toNat + 1 := by bv_omega
    omega

theorem Config.validWindow_of_valid {c : Config} (h : c.valid = true) :
    Config.validWindow c.txBase c.txMask = true ∧ Config.validWindow c.rxBase c.rxMask = true := by
  simp only [Config.valid, Bool.and_eq_true] at h
  obtain ⟨⟨⟨⟨htx, hrx⟩, _⟩, _⟩, _⟩ := h
  exact ⟨htx, hrx⟩

theorem Config.cap_pos_of_valid {c : Config} (h : c.valid = true) : 1 ≤ c.cap.toNat := by
  simp only [Config.valid, Bool.and_eq_true, decide_eq_true_eq] at h
  obtain ⟨⟨⟨_, hcap⟩, _⟩, _⟩ := h
  exact hcap

/-! The frame in FB (R26). -/

theorem State.fbWritten_iff {s : State} {n : Nat} : s.fbWritten n = true ↔ ∀ i < n, (s.readFb i).isSome = true := by
  simp [State.fbWritten]

theorem State.fbWritten_of_le {s : State} {m n : Nat} (h : s.fbWritten n = true) (hm : m ≤ n) : s.fbWritten m = true :=
  State.fbWritten_iff.2 fun i hi => State.fbWritten_iff.1 h i (by omega)

/-- A write to FB leaves every written byte written. -/
theorem State.fbWritten_writeFb {s : State} {n : Nat} (h : s.fbWritten n = true) (i : Word) (b : Byte) :
    (s.writeFb i b).fbWritten n = true := by
  refine State.fbWritten_iff.2 fun j hj => ?_
  by_cases e : j = i.toNat
  · rw [e, State.readFb_writeFb_self]
    rfl
  · rw [State.readFb_writeFb_other e]
    exact State.fbWritten_iff.1 h j hj

/-- Writing FB[i] after FB[0..i-1] leaves FB[0..i] written. -/
theorem State.fbWritten_writeFb_succ {s : State} {i : Word} (h : s.fbWritten i.toNat = true) (b : Byte) :
    (s.writeFb i b).fbWritten (i.toNat + 1) = true := by
  refine State.fbWritten_iff.2 fun j hj => ?_
  rcases Nat.lt_succ_iff_lt_or_eq.1 hj with hj | rfl
  · exact State.fbWritten_iff.1 (State.fbWritten_writeFb h i b) j hj
  · rw [State.readFb_writeFb_self]
    rfl

/-- A frame that is not dropped is in FB. -/
theorem State.frameWritten_iff {s : State} : s.frameWritten = true ↔
    (s.rx.drop = some false → ∀ n, s.rx.size = some n → s.fbWritten n.toNat = true) := by
  cases hd : s.rx.size <;> simp [State.frameWritten, hd, ← imp_iff_not_or]

theorem State.frameWritten_writeFb {s : State} (h : s.frameWritten = true) (i : Word) (b : Byte) :
    (s.writeFb i b).frameWritten = true :=
  State.frameWritten_iff.2 fun hd n hn => State.fbWritten_writeFb (State.frameWritten_iff.1 h hd n hn) i b

/-- FB[0..n-1] is read whole when it is written and inside CAP (R144). -/
theorem State.readFbBytes_ok {s : State} (n : Nat) : ∀ i, i + n ≤ s.cfg.cap.toNat → s.fbWritten (i + n) = true →
    ∃ bs, s.readFbBytes i n = .ok bs := by
  induction n with
  | zero => exact fun i _ _ => ⟨[], rfl⟩
  | succ n ih =>
    intro i hcap hw
    obtain ⟨b, hb⟩ := Option.isSome_iff_exists.1 (State.fbWritten_iff.1 hw i (by omega))
    obtain ⟨bs, hbs⟩ := ih (i + 1) (by omega) (State.fbWritten_of_le hw (by omega))
    exact ⟨b :: bs, by rw [State.readFbBytes, if_neg (by omega), hb, hbs]⟩

/-! What RECEIVE_DRAIN has written. -/

theorem State.drainNeeds_iff {s : State} : s.drainNeeds = true ↔ s.poll.ir.isSome = true ∧ s.rx.rd0.isSome = true ∧
    s.rx.rcur.isSome = true ∧ ∃ n, s.rx.size = some n ∧ s.rx.drop = some (rxOversized s.cfg n) := by
  cases hn : s.rx.size <;> simp [State.drainNeeds, hn, and_assoc]

/-- A frame that is not dropped fits in FB (R129). -/
theorem State.size_le_cap {s : State} {n : Word} (h : s.drainNeeds = true) (hd : s.rx.drop = some false)
    (hn : s.rx.size = some n) : n ≤ s.cfg.cap := by
  obtain ⟨_, _, _, m, hm, hdrop⟩ := State.drainNeeds_iff.1 h
  obtain rfl : n = m := by simpa [hn] using hm
  have hover : rxOversized s.cfg n = false := by simpa [hd] using hdrop.symm
  simpa [rxOversized, BitVec.not_lt] using hover

/-! The stack (R23, R30). -/

/-- The shapes of a stack with a top label. -/
theorem stackFits_cons {a : Act} {l : Label} {rest : List Label} (h : stackFits a (l :: rest) = true) :
    (a = .inInit ∧ l.ofInit = true ∧ rest = []) ∨ (a = .inPoll ∧ l.ofPoll = true ∧ rest = []) ∨
    (a = .inTransmit ∧ l.ofTransmit = true ∧ rest = []) ∨ (a = .inDispatch ∧ l = .dispatch ∧ rest = [.d8]) ∨
    (a = .inNestedTransmit ∧ l.ofTransmit = true ∧ rest = [.dispatch, .d8]) := by
  unfold stackFits at h
  split at h <;> simp_all

theorem stackFits_nil {a : Act} (h : stackFits a [] = true) : a = .idle := by
  cases a <;> simp_all [stackFits]

theorem stackFits_idle {pc : List Label} (h : stackFits .idle pc = true) : pc = [] := by
  cases pc <;> simp_all [stackFits]

theorem stackFits_inDispatch {pc : List Label} (h : stackFits .inDispatch pc = true) : pc = [.dispatch, .d8] := by
  unfold stackFits at h
  split at h <;> simp_all

/-- Under the top label only the callout's two labels stand. -/
theorem stackFits_below {a : Act} {l x : Label} {rest : List Label} (h : stackFits a (l :: rest) = true) (hx : x ∈ rest) :
    x = .dispatch ∨ x = .d8 := by
  rcases stackFits_cons h with ⟨_, _, rfl⟩ | ⟨_, _, rfl⟩ | ⟨_, _, rfl⟩ | ⟨_, _, rfl⟩ | ⟨_, _, rfl⟩ <;> simp_all

/-- D4 stands at the top of POLL_ONCE's stack or nowhere. -/
theorem stackFits_d4 {a : Act} {rest : List Label} (h : stackFits a (.d4 :: rest) = true) : a = .inPoll ∧ rest = [] := by
  rcases stackFits_cons h with ⟨_, hl, _⟩ | ⟨ha, _, hr⟩ | ⟨_, hl, _⟩ | ⟨_, hl, _⟩ | ⟨_, hl, _⟩
  · simp [Label.ofInit] at hl
  · exact ⟨ha, hr⟩
  · simp [Label.ofTransmit] at hl
  · simp at hl
  · simp [Label.ofTransmit] at hl

theorem modeFits_of_transmit {l : Label} (h : l.ofTransmit = true) (m : Mode) : modeFits m l = (m == .rawActive) := by
  cases l <;> simp_all [Label.ofTransmit, modeFits, Label.ofInit]

/-! The invariant in two parts. -/

/-- Level, stack and mode agree, and each label of the stack has what it needs. -/
def State.linesFit (s : State) : Prop :=
  stackFits s.act s.pc = true ∧ ∀ l ∈ s.pc, modeFits s.mode l = true ∧ l.needs s = true

/-- The operation issued and the one under way are such as the top label can have, a copy and a callout with what they
need (R100, R103, R129, R132). -/
def State.latchesFit (s : State) : Prop :=
  opFits s = true ∧ pendingFits s = true ∧ (s.op = some .copyIn → s.rx.drop = some false) ∧
    (s.op = some .dispatch → s.rx.drop = some false ∧ s.len = s.rx.size) ∧ s.copyFits = true

theorem State.controlFits_iff {s : State} : s.controlFits = true ↔
    stackFits s.act s.pc = true ∧ opFits s = true ∧ pendingFits s = true ∧ ∀ l ∈ s.pc, modeFits s.mode l = true := by
  simp [State.controlFits, and_assoc]

theorem State.controlled_iff {s : State} : s.controlled = true ↔ s.linesFit ∧ s.latchesFit := by
  simp only [State.controlled, State.controlFits, State.linesFit, State.latchesFit, Bool.and_eq_true, List.all_eq_true,
    Bool.or_eq_true, bne_iff_ne, beq_iff_eq, ne_eq, ← imp_iff_not_or, forall_and]
  tauto

/-- With nothing issued or under way the latches hold nothing to fit. -/
theorem State.latchesFit_of_free {s : State} (hop : s.op = none) (hp : s.pending = none) : s.latchesFit := by
  simp [State.latchesFit, opFits, pendingFits, State.copyFits, hop, hp]

theorem State.controlled_of_free {s : State} (hs : s.linesFit) (hop : s.op = none) (hp : s.pending = none) :
    s.controlled = true := State.controlled_iff.2 ⟨hs, State.latchesFit_of_free hop hp⟩

theorem State.linesFit_of_controlled {s : State} (h : s.controlled = true) : s.linesFit := (State.controlled_iff.1 h).1

/-- What the top label has. -/
theorem State.linesFit_top {s : State} {l : Label} {rest : List Label} (h : s.linesFit) (hpc : s.pc = l :: rest) :
    stackFits s.act (l :: rest) = true ∧ modeFits s.mode l = true ∧ l.needs s = true :=
  ⟨hpc ▸ h.1, h.2 l (by simp [hpc])⟩

/-- The issued operation is a request, or the top label's line issues it. -/
theorem opFits_some {s : State} {i : Instr} (h : opFits s = true) (ho : s.op = some i) :
    i.port = .host ∨ ∃ l rest, s.pc = l :: rest ∧ l.issues s.cfg.regmap i = true := by
  cases hpc : s.pc <;> simp_all [opFits]

/-- The operation under way is the top label's, and nothing else is issued (R66). -/
theorem pendingFits_some {s : State} {r : Pending} (h : pendingFits s = true) (hp : s.pending = some r) :
    s.op = none ∧ ∃ l rest, s.pc = l :: rest ∧ l.pends s.cfg.regmap r = true := by
  cases hpc : s.pc <;> simp_all [pendingFits]

theorem State.issued_of_controlled {s : State} {i : Instr} (h : s.controlled = true) (ho : s.op = some i) :
    i.port = .host ∨ ∃ l rest, s.pc = l :: rest ∧ l.issues s.cfg.regmap i = true :=
  opFits_some (State.controlled_iff.1 h).2.1 ho

theorem State.underway_of_controlled {s : State} {r : Pending} (h : s.controlled = true) (hp : s.pending = some r) :
    s.op = none ∧ ∃ l rest, s.pc = l :: rest ∧ l.pends s.cfg.regmap r = true :=
  pendingFits_some (State.controlled_iff.1 h).2.2.1 hp

/-- While the engine is idle or inside the callout, nothing is under way and at most a request is issued. -/
theorem State.waiting_of_controlled {s : State} (h : s.controlled = true) (ha : s.act = .idle ∨ s.act = .inDispatch) :
    s.pending = none ∧ ∀ i, s.op = some i → i.port = .host := by
  obtain ⟨hstack, _⟩ := State.linesFit_of_controlled h
  have htop : ∀ l rest, s.pc = l :: rest → l = .dispatch := by
    rintro l rest hpc
    rcases ha with ha | ha <;> rw [ha] at hstack
    · simp [stackFits_idle hstack] at hpc
    · rw [stackFits_inDispatch hstack] at hpc
      exact (List.cons.inj hpc).1.symm
  constructor
  · cases hp : s.pending with
    | none => rfl
    | some r =>
      obtain ⟨_, l, rest, hpc, hl⟩ := State.underway_of_controlled h hp
      rw [htop l rest hpc] at hl
      cases hl
  · intro i ho
    rcases State.issued_of_controlled h ho with hi | ⟨l, rest, hpc, hl⟩
    · exact hi
    · rw [htop l rest hpc] at hl
      cases hl

/-! What leaves the invariant as it is. -/

/-- Taking the operation off its latch. -/
theorem State.controlled_of_issue {s : State} {i : Instr} (h : (s.issue i).controlled = true) (hop : s.op = none)
    (hp : s.pending = none) : s.controlled = true :=
  State.controlled_of_free (State.linesFit_of_controlled (s := s.issue i) h) hop hp

/-- Taking the operation under way off its latch. -/
theorem State.controlled_of_pend {s : State} {r : Pending} (h : (s.pend r).controlled = true) (hp : s.pending = none) :
    s.controlled = true :=
  State.controlled_of_free (State.linesFit_of_controlled (s := s.pend r) h)
    (State.underway_of_controlled h (r := r) rfl).1 hp

/-- What a label needs does not go away with a write to FB. -/
theorem Label.needs_writeFb {l : Label} {s : State} (h : l.needs s = true) (i : Word) (b : Byte) :
    l.needs (s.writeFb i b) = true := by
  have hd : (s.writeFb i b).drainNeeds = s.drainNeeds := rfl
  have hf := fun hw => State.frameWritten_writeFb (s := s) hw i b
  cases l <;> simp_all [Label.needs]
  case d4 => exact h.2.imp_right hf

/-- A label needs nothing of the copies' cursors. -/
theorem Label.needs_setRxCursor (l : Label) (pa i : Word) (s : State) : l.needs (s.setRxCursor pa i) = l.needs s := by
  cases l <;> rfl

theorem Label.needs_setTxCursor (l : Label) (pa i : Word) (s : State) : l.needs (s.setTxCursor pa i) = l.needs s := by
  cases l <;> rfl

/-- An agent writes FB while nothing is issued or under way (R145, R148). -/
theorem State.writeFb_controlled {s : State} (h : s.linesFit) (hop : s.op = none) (hp : s.pending = none) (i : Word)
    (b : Byte) : (s.writeFb i b).controlled = true :=
  State.controlled_of_free ⟨h.1, fun l hl => ⟨(h.2 l hl).1, Label.needs_writeFb (h.2 l hl).2 i b⟩⟩ hop hp

/-! Issuing, answering and leaving a rest. -/

/-- A line or an agent issues an operation. -/
theorem State.issue_controlled {s : State} {i : Instr} (h : s.linesFit) (hp : s.pending = none)
    (hi : i.port = .host ∨ ∃ l rest, s.pc = l :: rest ∧ l.issues s.cfg.regmap i = true)
    (hcopy : i = .copyIn → s.rx.drop = some false)
    (hcall : i = .dispatch → s.rx.drop = some false ∧ s.len = s.rx.size) : (s.issue i).controlled = true := by
  refine State.controlled_iff.2 ⟨h, ?_, ?_, ?_, ?_, ?_⟩
  · rcases hi with hi | ⟨l, rest, hpc, hl⟩
    · simp [opFits, hi]
    · simp [opFits, hpc, hl]
  · simp [pendingFits, hp]
  · simpa using hcopy
  · simpa using hcall
  · simp [State.copyFits, hp]

/-- A line issues an operation that is neither a copy into FB nor the callout. -/
theorem State.issue_controlled_of_line {s : State} {i : Instr} {l : Label} {rest : List Label} (h : s.linesFit)
    (hp : s.pending = none) (hpc : s.pc = l :: rest) (hl : l.issues s.cfg.regmap i = true) (hcopy : i ≠ .copyIn)
    (hcall : i ≠ .dispatch) : (s.issue i).controlled = true :=
  State.issue_controlled h hp (.inr ⟨l, rest, hpc, hl⟩) (fun e => absurd e hcopy) (fun e => absurd e hcall)

/-- An operation answers its line; at D4 the frame is then in FB. -/
theorem State.answer_controlled {s : State} (h : s.linesFit) (hop : s.op = none) (hp : s.pending = none) (r : OpResult)
    (hd4 : .d4 ∈ s.pc → s.frameWritten = true) : (s.answer r).controlled = true := by
  refine State.controlled_of_free ⟨h.1, fun l hl => ⟨(h.2 l hl).1, ?_⟩⟩ hop hp
  have hn := (h.2 l hl).2
  cases l
  case d4 =>
    have hf : (s.answer r).frameWritten = true := hd4 hl
    have hd : (s.answer r).drainNeeds = s.drainNeeds := rfl
    simp_all [Label.needs]
  all_goals exact hn

/-- An operation leaves its rest. -/
theorem State.pend_controlled {s : State} {r : Pending} {l : Label} {rest : List Label} (h : s.linesFit) (hop : s.op = none)
    (hpc : s.pc = l :: rest) (hl : l.pends s.cfg.regmap r = true) (hcopy : (s.pend r).copyFits = true) :
    (s.pend r).controlled = true := by
  refine State.controlled_iff.2 ⟨h, ?_, ?_, ?_, ?_, hcopy⟩
  · simp [opFits, hop]
  · simp [pendingFits, hop, hpc, hl]
  · simp [hop]
  · simp [hop]

/-! Moving the sequencer. -/

/-- No request runs. -/
theorem State.controlled_of_idle {s : State} (ha : s.act = .idle) (hpc : s.pc = []) (hop : s.op = none)
    (hp : s.pending = none) : s.controlled = true :=
  State.controlled_of_free ⟨by rw [ha, hpc]; rfl, by simp [hpc]⟩ hop hp

/-- The sequencer moves to a label that fits, nothing standing below it. -/
theorem State.goto_controlled {s : State} {l l' : Label} (hpc : s.pc = [l]) (hop : s.op = none) (hp : s.pending = none)
    (hstack : stackFits s.act [l'] = true) (hmode : modeFits s.mode l' = true) (hneeds : l'.needs (s.goto l') = true) :
    (s.goto l').controlled = true := by
  refine State.controlled_of_free ⟨?_, ?_⟩ hop hp
  · simpa [hpc] using hstack
  · simpa [hpc] using ⟨hmode, hneeds⟩

/-- TRANSMIT moves to its next line, from idle or inside the callout; the callout's labels keep what they need (R150). -/
theorem State.goto_controlled_transmit {s : State} {l l' : Label} {rest : List Label} (tx : TxBank) (h : s.linesFit)
    (hpc : s.pc = l :: rest) (hop : s.op = none) (hp : s.pending = none) (hl : l.ofTransmit = true)
    (hl' : l'.ofTransmit = true) (hneeds : l'.needs (State.goto l' { s with tx := tx }) = true) :
    (State.goto l' { s with tx := tx }).controlled = true := by
  obtain ⟨hstack, hmode, _⟩ := State.linesFit_top h hpc
  refine State.controlled_of_free ⟨?_, ?_⟩ hop hp
  · rcases stackFits_cons hstack with ⟨_, hi, _⟩ | ⟨_, hi, _⟩ | ⟨ha, _, hr⟩ | ⟨_, hi, _⟩ | ⟨ha, _, hr⟩
    · cases l <;> simp_all [Label.ofInit, Label.ofTransmit]
    · cases l <;> simp_all [Label.ofPoll, Label.ofTransmit]
    · simpa [hpc, ha, hr, stackFits] using hl'
    · simp [hi, Label.ofTransmit] at hl
    · simpa [hpc, ha, hr, stackFits] using hl'
  · intro x hx
    rw [State.goto_pc, hpc, List.tail_cons, List.mem_cons] at hx
    rcases hx with rfl | hx
    · exact ⟨by simpa [modeFits_of_transmit hl, modeFits_of_transmit hl'] using hmode, hneeds⟩
    · obtain ⟨hm, hn⟩ := h.2 x (by simp [hpc, hx])
      refine ⟨hm, ?_⟩
      rcases stackFits_below hstack hx with rfl | rfl
      · rfl
      · exact hn

/-- A request that stands alone on the stack ends. -/
theorem State.finish_controlled {s : State} {l : Label} (hpc : s.pc = [l]) (ha : s.act.restored = .idle)
    (hop : s.op = none) (hp : s.pending = none) (r : RequestResult) : (s.finish r).controlled = true :=
  State.controlled_of_idle ha (by simp [hpc]) hop hp

/-- TRANSMIT ends: the engine is idle, or the callout goes on (R134, R150). -/
theorem State.finish_controlled_transmit {s : State} {l : Label} {rest : List Label} (h : s.linesFit)
    (hpc : s.pc = l :: rest) (hop : s.op = none) (hp : s.pending = none) (hl : l.ofTransmit = true) (r : RequestResult) :
    (s.finish r).controlled = true := by
  obtain ⟨hstack, _⟩ := State.linesFit_top h hpc
  rcases stackFits_cons hstack with ⟨ha, _, hr⟩ | ⟨ha, _, hr⟩ | ⟨ha, _, hr⟩ | ⟨_, hi, _⟩ | ⟨ha, _, hr⟩
  · exact State.finish_controlled (hr ▸ hpc) (by rw [ha]; rfl) hop hp r
  · exact State.finish_controlled (hr ▸ hpc) (by rw [ha]; rfl) hop hp r
  · exact State.finish_controlled (hr ▸ hpc) (by rw [ha]; rfl) hop hp r
  · simp [hi, Label.ofTransmit] at hl
  · refine State.controlled_of_free ⟨?_, ?_⟩ hop hp
    · simp [hpc, ha, hr, stackFits, Act.restored]
    · intro x hx
      rw [State.finish_pc, hpc, List.tail_cons] at hx
      obtain ⟨hm, hn⟩ := h.2 x (by simp [hpc, hx])
      refine ⟨hm, ?_⟩
      rcases stackFits_below hstack hx with rfl | rfl
      · rfl
      · exact hn

end Sys2Proof.Machine

/-! PROOFS. Every step keeps the control invariant: the meanings by their port, the copies, the agents and the lines of the
three requests, each from the rules of the part before. -/

namespace Sys2Proof.Machine

/-! The meanings by port. -/

/-- A request is refused, finds LEN unwritten, or enters its first line (R107, R115, R134, R154). -/
theorem exec_request_cases {i : Instr} {s t : State} (hi : i.port = .host) (h : exec i s = .next t) :
    (∃ r, t = s.refuse r) ∨ (i = .transmit ∧ s.len = none ∧ t = s.raise .unwrittenRead) ∨
    (s.act = .idle ∧ s.mode ≠ .rawActive ∧ t = State.enter .inInit .i1 { s with initBank := .unwritten }) ∨
    (s.act = .idle ∧ s.mode = .rawActive ∧ t = State.enter .inPoll .p1 { s with poll := .unwritten, rx := .unwritten }) ∨
    ∃ n, (s.act = .idle ∨ s.act = .inDispatch) ∧ s.mode = .rawActive ∧
      t = State.enter (if s.act = .idle then .inTransmit else .inNestedTransmit) .t1
        { s with tx := { TxBank.unwritten with tlen := some n } } := by
  cases i <;> try cases hi
  case init =>
    simp only [exec, execInit] at h
    split at h
    · cases h
      exact .inl ⟨_, rfl⟩
    · rename_i ha
      split at h <;> rename_i hm <;> cases h
      · exact .inl ⟨_, rfl⟩
      · exact .inr (.inr (.inl ⟨not_not.1 ha, hm, rfl⟩))
  case pollOnce =>
    simp only [exec, execPollOnce] at h
    split at h
    · cases h
      exact .inl ⟨_, rfl⟩
    · rename_i ha
      split at h <;> rename_i hm <;> cases h
      · exact .inl ⟨_, rfl⟩
      · exact .inr (.inr (.inr (.inl ⟨not_not.1 ha, not_not.1 hm, rfl⟩)))
  case transmit =>
    simp only [exec, execTransmit] at h
    split at h
    · cases h
      exact .inl ⟨_, rfl⟩
    · rename_i ha
      split at h
      · cases h
        exact .inl ⟨_, rfl⟩
      · rename_i hm
        rcases withWritten_next h with ⟨hn, rfl⟩ | ⟨n, _, h⟩
        · exact .inr (.inl ⟨rfl, hn, rfl⟩)
        · cases h
          exact .inr (.inr (.inr (.inr ⟨n, not_not.1 ha, not_not.1 hm, rfl⟩)))
  case reservedRequest code =>
    cases h
    exact .inl ⟨_, rfl⟩

/-- A bus operation is one frame that is answered, or the first of a pair (R92 to R95). -/
theorem exec_bus_cases {i : Instr} {s t : State} (hi : i.port = .bus) (h : exec i s = .next t) :
    (∃ a v, t = (busRead a s).2.answer v) ∨ (∃ a d, t = (busWrite a d s).answer .done) ∨
    (∃ a, i = .read16 a ∧ t = (busRead a s).2.pend (.read16Low (nextAddr a) (busRead a s).1)) ∨
    ∃ a v, i = .write16 a v ∧ t = (busWrite a (hiByte v) s).pend (.write16Low (nextAddr a) (loByte v)) := by
  have rd {a : Word} (h : runRead a s = .next t) : ∃ a v, t = (busRead a s).2.answer v := by
    cases h
    exact ⟨a, _, rfl⟩
  have wr {a : Word} {d : Byte} (h : runWrite a d s = .next t) : ∃ a d, t = (busWrite a d s).answer .done := by
    cases h
    exact ⟨a, d, rfl⟩
  cases i <;> try cases hi
  case read16 a =>
    cases h
    exact .inr (.inr (.inl ⟨a, rfl, rfl⟩))
  case write16 a v =>
    cases h
    exact .inr (.inr (.inr ⟨a, v, rfl, rfl⟩))
  case read8 => exact .inl (rd h)
  case readSr => exact .inl (rd h)
  case readIr => exact .inl (rd h)
  case readS0Ir => exact .inl (rd h)
  all_goals exact .inr (.inl (wr h))

theorem decodeRequest_port (code : Byte) : (decodeRequest code).port = .host := by
  unfold decodeRequest
  split
  · rfl
  · split
    · rfl
    · split <;> rfl

/-- A READ16 that a line issues leaves the second frame of that line (R76). -/
theorem Label.pends_of_issues_read16 {l : Label} {rm : RegMap} {a : Word} (h : l.issues rm (.read16 a) = true) (hi : Byte) :
    l.pends rm (.read16Low (nextAddr a) hi) = true := by
  cases l <;> simp_all [Label.issues, Label.pends, Pending.readsLowOf]

/-- A WRITE16 that a line issues leaves the second frame of that line (R77). -/
theorem Label.pends_of_issues_write16 {l : Label} {rm : RegMap} {a v : Word} (h : l.issues rm (.write16 a v) = true)
    (lo : Byte) : l.pends rm (.write16Low (nextAddr a) lo) = true := by
  cases l <;> simp_all [Label.issues, Label.pends, Pending.writesLowOf]

/-! Each internal operation is one line's (R80, R119, R125, R132, R138). -/

theorem Instr.internal_cases {i : Instr} (hi : i.port = .internal) :
    i = .receiveDrain ∨ i = .copyIn ∨ i = .copyOut ∨ i = .dispatch := by
  cases i <;> simp_all [Instr.port]

theorem Label.issues_receiveDrain {l : Label} {rm : RegMap} (h : l.issues rm .receiveDrain = true) : l = .p4 := by
  cases l <;> simp_all [Label.issues]

theorem Label.issues_copyIn {l : Label} {rm : RegMap} (h : l.issues rm .copyIn = true) : l = .d4 := by
  cases l <;> simp_all [Label.issues]

theorem Label.issues_copyOut {l : Label} {rm : RegMap} (h : l.issues rm .copyOut = true) : l = .t5 := by
  cases l <;> simp_all [Label.issues]

theorem Label.issues_dispatch {l : Label} {rm : RegMap} (h : l.issues rm .dispatch = true) : l = .d8 := by
  cases l <;> simp_all [Label.issues]

/-- An internal operation is issued by the line at the top label alone: the host cannot issue it (R80). -/
theorem State.issued_internal {s : State} {i : Instr} (hs : (s.issue i).controlled = true) (hi : i.port = .internal) :
    ∃ l rest, s.pc = l :: rest ∧ l.issues s.cfg.regmap i = true := by
  rcases State.issued_of_controlled hs (i := i) rfl with hhost | htop
  · simp [hi] at hhost
  · exact htop

/-- Only D4 has a COPY_IN under way. -/
theorem Label.pends_copyIn {l : Label} {rm : RegMap} (h : l.pends rm .copyIn = true) : l = .d4 := by
  cases l <;> simp_all [Label.pends, Pending.readsLowOf, Pending.writesLowOf]

/-- Only T5 has a COPY_OUT under way. -/
theorem Label.pends_copyOut {l : Label} {rm : RegMap} (h : l.pends rm .copyOut = true) : l = .t5 := by
  cases l <;> simp_all [Label.pends, Pending.readsLowOf, Pending.writesLowOf]

/-- D4 issues a COPY_IN and has a COPY_IN under way, and no bus frame. -/
theorem Label.ne_d4_of_issues_bus {l : Label} {rm : RegMap} {i : Instr} (hi : i.port = .bus) (h : l.issues rm i = true) :
    l ≠ .d4 := by
  rintro rfl
  obtain rfl : i = .copyIn := by simpa [Label.issues] using h
  cases hi

theorem State.not_mem_d4 {s : State} {l : Label} {rest : List Label} (h : s.linesFit) (hpc : s.pc = l :: rest)
    (hl : l ≠ .d4) : .d4 ∉ s.pc := by
  obtain ⟨hstack, _⟩ := State.linesFit_top h hpc
  rw [hpc, List.mem_cons]
  rintro (he | he)
  · exact hl he.symm
  · rcases stackFits_below hstack he with he | he <;> cases he

/-- From idle or from inside the callout at most a request is issued, which fits every stack. -/
theorem State.latchesFit_of_waiting {s t : State} (hs : s.controlled = true) (ha : s.act = .idle ∨ s.act = .inDispatch)
    (ho : t.op = s.op) (hp : t.pending = s.pending) : t.latchesFit := by
  obtain ⟨hpend, hport⟩ := State.waiting_of_controlled hs ha
  refine ⟨?_, ?_, fun he => ?_, fun he => ?_, ?_⟩
  · cases hso : s.op with
    | none => simp [opFits, ho, hso]
    | some j => simp [opFits, ho, hso, hport j hso]
  · simp [pendingFits, hp, hpend]
  · cases hport .copyIn (ho.symm.trans he)
  · cases hport .dispatch (ho.symm.trans he)
  · simp [State.copyFits, hp, hpend]

/-- A request, issued or presented at once, keeps the invariant whatever is issued or under way (R107, R115, R134, R154). -/
theorem exec_request_controlled {i : Instr} {s t : State} (hs : s.controlled = true) (hi : i.port = .host)
    (h : exec i s = .next t) : t.controlled = true := by
  obtain ⟨hstack, hlines⟩ := State.linesFit_of_controlled hs
  rcases exec_request_cases hi h with ⟨r, rfl⟩ | ⟨_, _, rfl⟩ | ⟨ha, hm, rfl⟩ | ⟨ha, hm, rfl⟩ | ⟨n, ha, hm, rfl⟩
  · exact hs
  · exact hs
  · have hpc := stackFits_idle (ha ▸ hstack)
    refine State.controlled_iff.2 ⟨⟨?_, ?_⟩, State.latchesFit_of_waiting hs (.inl ha) rfl rfl⟩
    · simp [hpc, stackFits, Label.ofInit]
    · simp [hpc, modeFits, hm, Label.needs]
  · have hpc := stackFits_idle (ha ▸ hstack)
    refine State.controlled_iff.2 ⟨⟨?_, ?_⟩, State.latchesFit_of_waiting hs (.inl ha) rfl rfl⟩
    · simp [hpc, stackFits, Label.ofPoll]
    · simp [hpc, modeFits, hm, Label.needs, Label.ofInit]
  · have hpc : (s.act = .idle ∧ s.pc = []) ∨ (s.act = .inDispatch ∧ s.pc = [.dispatch, .d8]) :=
      ha.imp (fun ha => ⟨ha, stackFits_idle (ha ▸ hstack)⟩) fun ha => ⟨ha, stackFits_inDispatch (ha ▸ hstack)⟩
    refine State.controlled_iff.2 ⟨⟨?_, fun l hl => ?_⟩, State.latchesFit_of_waiting hs ha rfl rfl⟩
    · rcases hpc with ⟨ha, hpc⟩ | ⟨ha, hpc⟩ <;> simp [ha, hpc, stackFits, Label.ofTransmit]
    · rcases List.mem_cons.1 hl with rfl | hl
      · exact ⟨by simp [modeFits, hm, Label.ofInit], rfl⟩
      · obtain ⟨hmode, hneeds⟩ := hlines l hl
        have hl' : l = .dispatch ∨ l = .d8 := by
          rcases hpc with ⟨_, hpc⟩ | ⟨_, hpc⟩
          · simp [hpc] at hl
          · simpa [hpc] using hl
        rcases hl' with rfl | rfl
        · exact ⟨hmode, rfl⟩
        · exact ⟨hmode, hneeds⟩

/-! The copies (R100, R101). -/

/-- What a COPY_IN under way has: it is D4's, of a frame that fits, its cursor in the window and its bytes so far in FB. -/
theorem State.copyIn_underway {s : State} (hs : (s.pend .copyIn).controlled = true) :
    s.op = none ∧ s.pc = [.d4] ∧ s.linesFit ∧ s.drainNeeds = true ∧ s.rx.drop = some false ∧
      (∃ pa, s.rx.rpa = some pa ∧ (s.cfg.valid = true → inWindow s.cfg.rxBase s.cfg.rxMask pa = true)) ∧
      ∃ i, s.rx.ri = some i ∧ s.fbWritten i.toNat = true := by
  have hlines : s.linesFit := State.linesFit_of_controlled (s := s.pend .copyIn) hs
  obtain ⟨hop, l, rest, hpc, hl⟩ := State.underway_of_controlled hs (r := .copyIn) rfl
  obtain rfl := Label.pends_copyIn hl
  obtain ⟨_, _, _, _, hcopy⟩ := (State.controlled_iff.1 hs).2
  obtain ⟨hstack, _, hneeds⟩ := State.linesFit_top hlines hpc
  obtain ⟨_, rfl⟩ := stackFits_d4 hstack
  simp only [Label.needs, Bool.and_eq_true] at hneeds
  simp only [State.copyFits, State.pend_pending, State.pend_rx, State.pend_cfg, Bool.and_eq_true, beq_iff_eq,
    Option.any_eq_true] at hcopy
  obtain ⟨⟨hdrop, pa, hpa, hwin⟩, i, hi, hfb⟩ := hcopy
  refine ⟨hop, hpc, hlines, hneeds.1, hdrop, ⟨pa, hpa, fun hv => ?_⟩, i, hi, hfb⟩
  simpa [hv] using hwin

/-- What a COPY_OUT under way has: it is T5's, its registers written and its cursor in the window. -/
theorem State.copyOut_underway {s : State} (hs : (s.pend .copyOut).controlled = true) :
    s.op = none ∧ (∃ rest, s.pc = .t5 :: rest) ∧ s.linesFit ∧ s.tx.tlen.isSome = true ∧
      (∃ pa, s.tx.tpa = some pa ∧ (s.cfg.valid = true → inWindow s.cfg.txBase s.cfg.txMask pa = true)) ∧
      s.tx.ti.isSome = true := by
  have hlines : s.linesFit := State.linesFit_of_controlled (s := s.pend .copyOut) hs
  obtain ⟨hop, l, rest, hpc, hl⟩ := State.underway_of_controlled hs (r := .copyOut) rfl
  obtain rfl := Label.pends_copyOut hl
  obtain ⟨_, _, _, _, hcopy⟩ := (State.controlled_iff.1 hs).2
  obtain ⟨_, _, hneeds⟩ := State.linesFit_top hlines hpc
  simp only [Label.needs, Bool.and_eq_true] at hneeds
  simp only [State.copyFits, State.pend_pending, State.pend_tx, State.pend_cfg, Bool.and_eq_true,
    Option.any_eq_true] at hcopy
  obtain ⟨⟨pa, hpa, hwin⟩, hi⟩ := hcopy
  exact ⟨hop, ⟨rest, hpc⟩, hlines, hneeds.1, ⟨pa, hpa, fun hv => by simpa [hv] using hwin⟩, hi⟩

/-- The next index of a copy, which is below its count, does not wrap. -/
theorem toNat_succ_of_lt {i n : Word} (h : i < n) : (i + 1).toNat = i.toNat + 1 := by
  bv_omega

/-- One turn of a COPY_IN under way (R100). -/
theorem copyInTurn_controlled {s t : State} (hs : (s.pend .copyIn).controlled = true) (hp : s.pending = none)
    (h : copyInTurn s = .next t) : t.controlled = true := by
  have hfree := State.controlled_of_pend hs hp
  obtain ⟨hop, hpc, hlines, _, hdrop, ⟨pa, hpa, hwin⟩, i, hi, hfb⟩ := State.copyIn_underway hs
  rcases copyInTurn_cases h with ⟨_, rfl⟩ | ⟨n, pa', i', hn, hpa', hi', hend⟩
  · exact hfree
  obtain rfl : pa = pa' := by simpa [hpa] using hpa'
  obtain rfl : i = i' := by simpa [hi] using hi'
  rcases hend with ⟨hle, rfl⟩ | ⟨_, _, rfl⟩ | ⟨_, _, rfl⟩ | ⟨hlt, _, _, rfl⟩
  · refine State.answer_controlled hlines hop hp _ fun _ => State.frameWritten_iff.2 fun _ m hm => ?_
    obtain rfl : n = m := by simpa [hn] using hm
    exact State.fbWritten_of_le hfb hle
  · exact hfree
  · exact hfree
  · have hlines' : (copyInByte pa i s).linesFit :=
      ⟨hlines.1, fun l hl => ⟨(hlines.2 l hl).1, Label.needs_writeFb (hlines.2 l hl).2 i (busRead pa s).1⟩⟩
    refine State.pend_controlled hlines' hop hpc rfl ?_
    have hcur : !s.cfg.valid || inWindow s.cfg.rxBase s.cfg.rxMask (nextCursor s.cfg.rxBase s.cfg.rxMask pa) := by
      cases hv : s.cfg.valid
      · rfl
      · exact inWindow_nextCursor (Config.validWindow_of_valid hv).2 (hwin hv)
    have hfb' : (s.writeFb i (busRead pa s).1).fbWritten (i + 1).toNat = true := by
      rw [toNat_succ_of_lt hlt]
      exact State.fbWritten_writeFb_succ hfb _
    simp only [State.copyFits, State.pend_pending, Bool.and_eq_true, Option.any_eq_true]
    exact ⟨⟨beq_iff_eq.2 hdrop, _, rfl, hcur⟩, _, rfl, hfb'⟩

/-- One turn of a COPY_OUT under way (R101). -/
theorem copyOutTurn_controlled {s t : State} (hs : (s.pend .copyOut).controlled = true) (hp : s.pending = none)
    (h : copyOutTurn s = .next t) : t.controlled = true := by
  have hfree := State.controlled_of_pend hs hp
  obtain ⟨hop, ⟨rest, hpc⟩, hlines, _, ⟨pa, hpa, hwin⟩, _⟩ := State.copyOut_underway hs
  rcases copyOutTurn_cases h with ⟨_, rfl⟩ | ⟨n, pa', i, _, hpa', _, hend⟩
  · exact hfree
  obtain rfl : pa = pa' := by simpa [hpa] using hpa'
  rcases hend with ⟨_, rfl⟩ | ⟨_, _, rfl⟩ | ⟨_, _, _, rfl⟩ | ⟨b, _, _, _, ⟨_, rfl⟩ | ⟨_, rfl⟩⟩
  · exact State.answer_controlled hlines hop hp _ fun hd => absurd hd (State.not_mem_d4 hlines hpc (by decide))
  · exact hfree
  · exact hfree
  · exact hfree
  · refine State.pend_controlled (s := copyOutByte pa i b s) ?_ hop hpc rfl ?_
    · refine ⟨hlines.1, fun l hl => ⟨(hlines.2 l hl).1, ?_⟩⟩
      exact (Label.needs_setTxCursor l _ _ s).trans (hlines.2 l hl).2
    · have hcur : !s.cfg.valid || inWindow s.cfg.txBase s.cfg.txMask (nextCursor s.cfg.txBase s.cfg.txMask pa) := by
        cases hv : s.cfg.valid
        · rfl
        · exact inWindow_nextCursor (Config.validWindow_of_valid hv).1 (hwin hv)
      simp only [State.copyFits, State.pend_pending, Bool.and_eq_true, Option.any_eq_true]
      exact ⟨⟨_, rfl, hcur⟩, rfl⟩

/-- The rest of an operation under way (R94, R95, R100, R101). -/
theorem resume_controlled {r : Pending} {s t : State} (hs : (s.pend r).controlled = true) (hp : s.pending = none)
    (h : resume r s = .next t) : t.controlled = true := by
  have hlines : s.linesFit := State.linesFit_of_controlled (s := s.pend r) hs
  obtain ⟨hop, l, rest, hpc, hl⟩ := State.underway_of_controlled hs (r := r) rfl
  have hd4 : r ≠ .copyIn → .d4 ∉ s.pc := fun hr =>
    State.not_mem_d4 hlines hpc fun he => hr (by simpa [he, Label.pends] using hl)
  rcases resume_cases h with ⟨a, hi, rfl, rfl⟩ | ⟨a, lo, rfl, rfl⟩ | ⟨rfl, h⟩ | ⟨rfl, h⟩
  · exact State.answer_controlled (s := (busRead a s).2) hlines hop hp _ fun hd => absurd hd (hd4 nofun)
  · exact State.answer_controlled (s := busWrite a lo s) hlines hop hp _ fun hd => absurd hd (hd4 nofun)
  · exact copyInTurn_controlled hs hp h
  · exact copyOutTurn_controlled hs hp h

/-! The issued operation. -/

/-- COPY_IN sets its cursors: a COPY_IN is then under way at its first byte (R97, R100, R103). -/
theorem State.setRxCursor_underway {s : State} {p : Word} (h : s.linesFit) (hop : s.op = none) (hpc : s.pc = [.d4])
    (hdrop : s.rx.drop = some false) :
    ((s.setRxCursor (phys s.cfg.rxBase s.cfg.rxMask p) 0).pend .copyIn).controlled = true := by
  refine State.pend_controlled (s := s.setRxCursor _ 0) ?_ hop hpc rfl ?_
  · exact ⟨h.1, fun l hl => ⟨(h.2 l hl).1, (Label.needs_setRxCursor l _ _ s).trans (h.2 l hl).2⟩⟩
  · have hcur : !s.cfg.valid || inWindow s.cfg.rxBase s.cfg.rxMask (phys s.cfg.rxBase s.cfg.rxMask p) := by
      cases hv : s.cfg.valid
      · rfl
      · exact inWindow_phys (Config.validWindow_of_valid hv).2 p
    simp only [State.copyFits, State.pend_pending, Bool.and_eq_true, Option.any_eq_true]
    exact ⟨⟨beq_iff_eq.2 hdrop, _, rfl, hcur⟩, _, rfl, rfl⟩

/-- COPY_OUT sets its cursors: a COPY_OUT is then under way at its first byte (R97, R101, R103). -/
theorem State.setTxCursor_underway {s : State} {p : Word} {rest : List Label} (h : s.linesFit) (hop : s.op = none)
    (hpc : s.pc = .t5 :: rest) :
    ((s.setTxCursor (phys s.cfg.txBase s.cfg.txMask p) 0).pend .copyOut).controlled = true := by
  refine State.pend_controlled (s := s.setTxCursor _ 0) ?_ hop hpc rfl ?_
  · exact ⟨h.1, fun l hl => ⟨(h.2 l hl).1, (Label.needs_setTxCursor l _ _ s).trans (h.2 l hl).2⟩⟩
  · have hcur : !s.cfg.valid || inWindow s.cfg.txBase s.cfg.txMask (phys s.cfg.txBase s.cfg.txMask p) := by
      cases hv : s.cfg.valid
      · rfl
      · exact inWindow_phys (Config.validWindow_of_valid hv).1 p
    simp only [State.copyFits, State.pend_pending, Bool.and_eq_true, Option.any_eq_true]
    exact ⟨⟨_, rfl, hcur⟩, rfl⟩

/-- A bus operation that the top label's line issued (R92 to R95). -/
theorem exec_bus_controlled {i : Instr} {l : Label} {rest : List Label} {s t : State} (hs : s.linesFit) (hop : s.op = none)
    (hp : s.pending = none) (hi : i.port = .bus) (hpc : s.pc = l :: rest) (hl : l.issues s.cfg.regmap i = true)
    (h : exec i s = .next t) : t.controlled = true := by
  have hd4 := State.not_mem_d4 hs hpc (Label.ne_d4_of_issues_bus hi hl)
  rcases exec_bus_cases hi h with ⟨a, v, rfl⟩ | ⟨a, d, rfl⟩ | ⟨a, rfl, rfl⟩ | ⟨a, v, rfl, rfl⟩
  · exact State.answer_controlled (s := (busRead a s).2) hs hop hp _ fun hd => absurd hd hd4
  · exact State.answer_controlled (s := busWrite a d s) hs hop hp _ fun hd => absurd hd hd4
  · exact State.pend_controlled (s := (busRead a s).2) hs hop hpc (Label.pends_of_issues_read16 hl _) rfl
  · exact State.pend_controlled (s := busWrite a (hiByte v) s) hs hop hpc (Label.pends_of_issues_write16 hl _) rfl

/-- RECEIVE_DRAIN is entered from P4 (R119, R125). -/
theorem execReceiveDrain_controlled {s : State} {rest : List Label} (hs : s.linesFit) (hop : s.op = none)
    (hp : s.pending = none) (hpc : s.pc = .p4 :: rest) : (s.goto .d1).controlled = true := by
  obtain ⟨hstack, hmode, hneeds⟩ := State.linesFit_top hs hpc
  rcases stackFits_cons hstack with ⟨_, hl, _⟩ | ⟨ha, _, rfl⟩ | ⟨_, hl, _⟩ | ⟨_, hl, _⟩ | ⟨_, hl, _⟩
  · cases hl
  · simp only [Label.needs, Bool.and_eq_true] at hneeds
    exact State.goto_controlled hpc hop hp (by rw [ha]; rfl) hmode hneeds.1
  all_goals cases hl

/-- The callout is entered from D8 (R132, R144). -/
theorem State.callout_controlled {s : State} {rest : List Label} (hs : s.linesFit) (hop : s.op = none)
    (hp : s.pending = none) (hpc : s.pc = .d8 :: rest) (n : Word) (bs : List Byte) : (s.callout n bs).controlled = true := by
  obtain ⟨hstack, hmode, hneeds⟩ := State.linesFit_top hs hpc
  rcases stackFits_cons hstack with ⟨_, hl, _⟩ | ⟨_, _, rfl⟩ | ⟨_, hl, _⟩ | ⟨_, hl, _⟩ | ⟨_, hl, _⟩
  · cases hl
  · refine State.controlled_of_free ⟨?_, ?_⟩ hop hp
    · simp [State.callout, hpc, stackFits]
    · have hn : Label.d8.needs (s.callout n bs) = true := hneeds
      have hm : s.mode = .rawActive := by simpa [modeFits, Label.ofInit] using hmode
      simpa [State.callout, hpc, modeFits, Label.ofInit] using ⟨⟨hm, rfl⟩, hm, hn⟩
  all_goals cases hl

/-- The issued operation keeps the invariant once it is taken off its latch. -/
theorem exec_controlled {i : Instr} {s t : State} (hs : (s.issue i).controlled = true) (hop : s.op = none)
    (hp : s.pending = none) (h : exec i s = .next t) : t.controlled = true := by
  have hfree := State.controlled_of_issue hs hop hp
  have hlines := State.linesFit_of_controlled hfree
  obtain ⟨_, _, hcopy, _⟩ := (State.controlled_iff.1 hs).2
  rcases State.issued_of_controlled hs (i := i) rfl with hi | ⟨l, rest, hpc, hl⟩
  · exact exec_request_controlled hfree hi h
  cases hi : i.port with
  | host => exact exec_request_controlled hfree hi h
  | bus => exact exec_bus_controlled hlines hop hp hi hpc hl h
  | internal =>
    rcases Instr.internal_cases hi with rfl | rfl | rfl | rfl
    · obtain rfl := Label.issues_receiveDrain hl
      cases h
      exact execReceiveDrain_controlled hlines hop hp hpc
    · obtain rfl := Label.issues_copyIn hl
      obtain ⟨_, rfl⟩ := stackFits_d4 (State.linesFit_top hlines hpc).1
      rcases withWritten_next h with ⟨_, rfl⟩ | ⟨p, _, h⟩
      · exact hfree
      rcases withWritten_next h with ⟨_, rfl⟩ | ⟨n, _, h⟩
      · exact hfree
      exact copyInTurn_controlled (State.setRxCursor_underway hlines hop hpc (hcopy rfl)) hp h
    · obtain rfl := Label.issues_copyOut hl
      rcases withWritten_next h with ⟨_, rfl⟩ | ⟨p, _, h⟩
      · exact hfree
      rcases withWritten_next h with ⟨_, rfl⟩ | ⟨n, _, h⟩
      · exact hfree
      exact copyOutTurn_controlled (State.setTxCursor_underway hlines hop hpc) hp h
    · obtain rfl := Label.issues_dispatch hl
      rcases withWritten_next h with ⟨_, rfl⟩ | ⟨n, _, h⟩
      · exact hfree
      split at h <;> cases h
      · exact hfree
      · exact State.callout_controlled hlines hop hp hpc n _

end Sys2Proof.Machine

/-! PROOFS. The agents' moves and the sequencer's lines keep the control invariant, and so every step does. -/

namespace Sys2Proof.Machine

/-- The host's moves while the engine is idle (R148, R171). -/
theorem hostMove_controlled {s t : State} (hs : s.linesFit) (hop : s.op = none) (hp : s.pending = none) (hpc : s.pc = [])
    (h : hostMove s = .next t) : t.controlled = true := by
  have ha : s.act = .idle := stackFits_nil (hpc ▸ hs.1)
  rcases hostMove_cases h with rfl | rfl | ⟨code, rfl⟩ | ⟨i, b, _, rfl⟩ | ⟨v, rfl⟩ | ⟨_, rfl⟩
  · exact State.controlled_of_idle ha hpc hop hp
  · exact State.controlled_of_idle ha hpc hop hp
  · have hi := decodeRequest_port code
    exact State.issue_controlled (s := { s with host := s.host.tail }) hs hp (.inl hi)
      (fun e => by rw [e] at hi; cases hi) (fun e => by rw [e] at hi; cases hi)
  · exact State.controlled_of_idle ha hpc hop hp
  · exact State.controlled_of_idle ha hpc hop hp
  · exact State.controlled_of_idle rfl rfl rfl rfl

/-- Frame Dispatch's moves inside the callout (R145, R146). -/
theorem dispatchMove_controlled {s t : State} {rest : List Label} (hs : s.linesFit) (hop : s.op = none)
    (hp : s.pending = none) (hpc : s.pc = .dispatch :: rest) (h : dispatchMove s = .next t) : t.controlled = true := by
  rcases dispatchMove_cases h with rfl | ⟨code, rfl⟩ | ⟨i, b, _, rfl⟩ | ⟨v, rfl⟩ | rfl
  · exact State.controlled_of_free hs hop hp
  · have hi := decodeRequest_port code
    exact State.issue_controlled (s := { s with dispatch := s.dispatch.tail }) hs hp (.inl hi)
      (fun e => by rw [e] at hi; cases hi) (fun e => by rw [e] at hi; cases hi)
  · exact State.writeFb_controlled (s := { s with dispatch := s.dispatch.tail }) hs hop hp i b
  · exact State.controlled_of_free (s := { s with dispatch := s.dispatch.tail, len := some v }) hs hop hp
  · obtain ⟨hstack, _⟩ := State.linesFit_top hs hpc
    have hrest : rest = [.d8] := by
      rcases stackFits_cons hstack with ⟨_, hl, _⟩ | ⟨_, hl, _⟩ | ⟨_, hl, _⟩ | ⟨_, _, hr⟩ | ⟨_, hl, _⟩
      · cases hl
      · cases hl
      · cases hl
      · exact hr
      · cases hl
    obtain ⟨hmode, hneeds⟩ := hs.2 .d8 (by simp [hpc, hrest])
    refine State.controlled_of_free ⟨?_, ?_⟩ hop hp
    · simp [hpc, hrest, stackFits, Label.ofPoll]
    · intro l hl
      obtain rfl : l = .d8 := by simpa [hpc, hrest] using hl
      exact ⟨hmode, hneeds⟩

/-- The lines of INIT (R107). -/
theorem initLine_controlled {l : Label} {s t : State} (hs : s.linesFit) (hop : s.op = none) (hp : s.pending = none)
    (ha : s.act = .inInit) (hl : l.ofInit = true) (hpc : s.pc = [l]) (h : runLine l s = .next t) : t.controlled = true := by
  have hfree := State.controlled_of_free hs hop hp
  obtain ⟨_, hmode, hneeds⟩ := State.linesFit_top hs hpc
  have hrestored : s.act.restored = .idle := by rw [ha]; rfl
  have issue {i : Instr} (hi : l.issues s.cfg.regmap i = true) (hcopy : i ≠ .copyIn) (hcall : i ≠ .dispatch) :=
    State.issue_controlled_of_line hs hp hpc hi hcopy hcall
  have stack {l' : Label} (hl' : l'.ofInit = true) : stackFits s.act [l'] = true := by rw [ha]; exact hl'
  cases l <;> try cases hl
  case i1 =>
    rcases lineI1_next h with rfl | rfl
    · exact issue rfl nofun nofun
    · exact State.goto_controlled hpc hop hp (stack rfl) hmode rfl
  case i2 =>
    rcases lineI2_next h with rfl | rfl
    · exact issue rfl nofun nofun
    · exact State.goto_controlled hpc hop hp (stack rfl) rfl rfl
  case i3 =>
    rcases lineI3_next h with ⟨_, rfl⟩ | ⟨n, _, rfl | rfl⟩
    · exact hfree
    · exact State.finish_controlled hpc hrestored hop hp _
    · exact State.goto_controlled hpc hop hp (stack rfl) hmode rfl
  case i4 =>
    rcases lineI4_next h with rfl | rfl
    · exact issue rfl nofun nofun
    · exact State.goto_controlled hpc hop hp (stack rfl) hmode hneeds
  case i5 =>
    rcases lineI5_next h with rfl | rfl
    · exact issue rfl nofun nofun
    · exact State.goto_controlled hpc hop hp (stack rfl) hmode hneeds
  case i6 =>
    rcases lineI6_next h with rfl | ⟨v, _, rfl⟩
    · exact issue rfl nofun nofun
    · exact State.goto_controlled hpc hop hp (stack rfl) hmode (by simpa [Label.needs] using hneeds)
  case i7 =>
    rcases lineI7_next h with ⟨_, rfl⟩ | ⟨v, _, rfl | rfl⟩
    · exact hfree
    · exact State.finish_controlled (s := { s with mode := .rawActive }) hpc hrestored hop hp _
    · simp only [Label.needs, Bool.and_eq_true] at hneeds
      exact State.goto_controlled hpc hop hp (stack rfl) hmode hneeds.1
  case i8 =>
    rcases lineI8_next h with rfl | rfl
    · exact issue rfl nofun nofun
    · exact State.goto_controlled hpc hop hp (stack rfl) hmode hneeds

/-- The lines of POLL_ONCE and RECEIVE_DRAIN (R115, R125). -/
theorem pollLine_controlled {l : Label} {s t : State} (hs : s.linesFit) (hop : s.op = none) (hp : s.pending = none)
    (ha : s.act = .inPoll) (hl : l.ofPoll = true) (hpc : s.pc = [l]) (h : runLine l s = .next t) : t.controlled = true := by
  have hfree := State.controlled_of_free hs hop hp
  obtain ⟨_, hmode, hneeds⟩ := State.linesFit_top hs hpc
  have hrestored : s.act.restored = .idle := by rw [ha]; rfl
  have issue {i : Instr} (hi : l.issues s.cfg.regmap i = true) (hcopy : i ≠ .copyIn) (hcall : i ≠ .dispatch) :=
    State.issue_controlled_of_line hs hp hpc hi hcopy hcall
  have stack {l' : Label} (hl' : l'.ofPoll = true) : stackFits s.act [l'] = true := by rw [ha]; exact hl'
  cases l <;> try cases hl
  case p1 =>
    rcases lineP1_next h with rfl | ⟨v, _, rfl | rfl⟩
    · exact issue rfl nofun nofun
    · exact State.finish_controlled (s := { s with poll := { s.poll with ir := some (loByte v) } }) hpc hrestored hop hp _
    · exact State.goto_controlled hpc hop hp (stack rfl) hmode rfl
  case p2 =>
    rcases lineP2_next h with ⟨_, rfl⟩ | rfl | ⟨v, _, rfl⟩ | rfl
    · exact hfree
    · exact issue rfl nofun nofun
    · exact State.goto_controlled hpc hop hp (stack rfl) hmode (by simpa [Label.needs] using hneeds)
    · exact State.goto_controlled hpc hop hp (stack rfl) hmode hneeds
  case p3 =>
    rcases lineP3_next h with ⟨_, rfl⟩ | rfl | rfl
    · exact hfree
    · exact issue rfl nofun nofun
    · exact State.goto_controlled hpc hop hp (stack rfl) hmode hneeds
  case p4 =>
    rcases lineP4_next h with ⟨_, rfl⟩ | rfl | rfl
    · exact hfree
    · exact issue rfl nofun nofun
    · simp only [Label.needs, Bool.and_eq_true] at hneeds
      exact State.goto_controlled hpc hop hp (stack rfl) hmode hneeds.1
  case p5 =>
    rcases lineP5_next h with ⟨_, rfl⟩ | ⟨v, _, rfl | rfl⟩
    · exact hfree
    · exact issue rfl nofun nofun
    · exact State.finish_controlled hpc hrestored hop hp _
  case d1 =>
    rcases lineD1_next h with rfl | ⟨v, _, rfl⟩
    · exact issue (by simp [Label.issues]) nofun nofun
    · exact State.goto_controlled hpc hop hp (stack rfl) hmode (by simpa [Label.needs] using hneeds)
  case d2 =>
    rcases lineD2_next h with rfl | ⟨v, _, rfl⟩
    · exact issue (by simp [Label.issues]) nofun nofun
    · exact State.goto_controlled hpc hop hp (stack rfl) hmode (by simpa [Label.needs] using hneeds)
  case d3 =>
    rcases lineD3_next h with ⟨_, rfl⟩ | ⟨n, hn, rfl⟩
    · exact hfree
    · refine State.goto_controlled hpc hop hp (stack rfl) hmode ?_
      simp_all [Label.needs, State.drainNeeds]
  case d4 =>
    simp only [Label.needs, Bool.and_eq_true, Bool.or_eq_true, beq_iff_eq] at hneeds
    obtain ⟨hdrain, hframe⟩ := hneeds
    rcases lineD4_next h with ⟨_, rfl⟩ | ⟨hdrop, rfl⟩ | ⟨hend, rfl⟩
    · exact hfree
    · exact State.issue_controlled hs hp (.inr ⟨.d4, [], hpc, rfl⟩) (fun _ => hdrop) nofun
    · have hw : s.frameWritten = true := by
        rcases hend with hdrop | hdone
        · exact State.frameWritten_iff.2 fun hd => by simp [hdrop] at hd
        · exact hframe.resolve_left hdone
      exact State.goto_controlled hpc hop hp (stack rfl) hmode (Bool.and_eq_true_iff.2 ⟨hdrain, hw⟩)
  case d5 =>
    rcases lineD5_next h with ⟨_, rfl⟩ | ⟨rd0, n, _, _, rfl | rfl⟩
    · exact hfree
    · exact issue (by simp [Label.issues]) nofun nofun
    · exact State.goto_controlled hpc hop hp (stack rfl) hmode hneeds
  case d6 =>
    rcases lineD6_next h with rfl | rfl
    · exact issue rfl nofun nofun
    · exact State.goto_controlled hpc hop hp (stack rfl) hmode hneeds
  case d7 =>
    rcases lineD7_next h with ⟨_, rfl⟩ | rfl
    · exact issue rfl nofun nofun
    · exact State.goto_controlled hpc hop hp (stack rfl) hmode hneeds
  case d8 =>
    simp only [Label.needs, Bool.and_eq_true] at hneeds
    rcases lineD8_next h with ⟨_, rfl⟩ | ⟨n, hdrop, hn, rfl⟩ | rfl
    · exact hfree
    · exact State.issue_controlled (s := { s with len := some n }) hs hp (.inr ⟨.d8, [], hpc, rfl⟩) nofun
        fun _ => ⟨hdrop, hn.symm⟩
    · exact State.goto_controlled hpc hop hp (stack rfl) hmode hneeds.1
  case d9 =>
    rcases lineD9_next h with ⟨_, rfl⟩ | rfl
    · exact issue rfl nofun nofun
    · exact State.goto_controlled hpc hop hp (stack rfl) hmode (State.drainNeeds_iff.1 hneeds).1

/-- The lines of TRANSMIT, from idle or inside the callout (R134, R150). -/
theorem transmitLine_controlled {l : Label} {rest : List Label} {s t : State} (hs : s.linesFit) (hop : s.op = none)
    (hp : s.pending = none) (hl : l.ofTransmit = true) (hpc : s.pc = l :: rest) (h : runLine l s = .next t) :
    t.controlled = true := by
  have hfree := State.controlled_of_free hs hop hp
  obtain ⟨_, _, hneeds⟩ := State.linesFit_top hs hpc
  have issue {i : Instr} (hi : l.issues s.cfg.regmap i = true) (hcopy : i ≠ .copyIn) (hcall : i ≠ .dispatch) :=
    State.issue_controlled_of_line hs hp hpc hi hcopy hcall
  have goto {l' : Label} (tx : TxBank) (hl' : l'.ofTransmit = true) :=
    State.goto_controlled_transmit tx hs hpc hop hp hl hl'
  have finish := State.finish_controlled_transmit hs hpc hop hp hl
  cases l <;> try cases hl
  case t1 =>
    rcases lineT1_next h with ⟨_, rfl⟩ | rfl | rfl
    · exact hfree
    · exact finish _
    · exact goto s.tx rfl hneeds
  case t2 =>
    obtain rfl := lineT2_next h
    exact goto _ rfl (by simpa [Label.needs] using hneeds)
  case t3 =>
    rcases lineT3_next h with ⟨_, rfl⟩ | rfl | rfl | ⟨k, n, v, _, hn, _, rfl⟩
    · exact hfree
    · exact finish _
    · exact issue (by simp [Label.issues]) nofun nofun
    · split
      · exact goto _ rfl (by simp [Label.needs, hn])
      · exact goto _ rfl (by simp [Label.needs, hn])
  case t4 =>
    rcases lineT4_next h with rfl | ⟨v, _, rfl⟩
    · exact issue (by simp [Label.issues]) nofun nofun
    · exact goto _ rfl (by simpa [Label.needs] using hneeds)
  case t5 =>
    rcases lineT5_next h with rfl | rfl
    · exact issue rfl nofun nofun
    · exact goto s.tx rfl hneeds
  case t6 =>
    rcases lineT6_next h with ⟨_, rfl⟩ | ⟨wr0, n, _, _, rfl | rfl⟩
    · exact hfree
    · exact issue (by simp [Label.issues]) nofun nofun
    · exact goto s.tx rfl rfl
  case t7 =>
    rcases lineT7_next h with rfl | rfl
    · exact issue rfl nofun nofun
    · exact finish _

/-- The line at the top label. -/
theorem runLine_controlled {l : Label} {rest : List Label} {s t : State} (hs : s.linesFit) (hop : s.op = none)
    (hp : s.pending = none) (hpc : s.pc = l :: rest) (h : runLine l s = .next t) : t.controlled = true := by
  rcases stackFits_cons (State.linesFit_top hs hpc).1 with
    ⟨ha, hl, rfl⟩ | ⟨ha, hl, rfl⟩ | ⟨_, hl, _⟩ | ⟨_, rfl, _⟩ | ⟨_, hl, _⟩
  · exact initLine_controlled hs hop hp ha hl hpc h
  · exact pollLine_controlled hs hop hp ha hl hpc h
  · exact transmitLine_controlled hs hop hp hl hpc h
  · exact dispatchMove_controlled hs hop hp hpc h
  · exact transmitLine_controlled hs hop hp hl hpc h

/-- Taking the rest of the operation under way off its latch and putting it back. -/
theorem State.pend_of_pending {s : State} {r : Pending} (hp : s.pending = some r) :
    State.pend r { s with pending := none } = s := by
  unfold State.pend
  rw [← hp]

theorem State.issue_of_op {s : State} {i : Instr} (ho : s.op = some i) : State.issue i { s with op := none } = s := by
  unfold State.issue
  rw [← ho]

/-- Settles O54: the reset meets the invariant, and a request at once, the rest of an operation, the issued operation, the
agents and the lines keep it. -/
theorem controlIsKept : Obligations.ControlIsKept := by
  intro s t hs h
  have hlines := State.linesFit_of_controlled hs
  rcases step_cases h with ⟨_, rfl⟩ | ⟨_, h⟩
  · exact State.controlled_of_idle rfl rfl rfl rfl
  rcases nextMove_cases h with ⟨code, _, h⟩ | ⟨r, hr, h⟩ | ⟨i, hp, hi, h⟩ | ⟨hp, hop, hpc, h⟩ | ⟨l, rest, hp, hop, hpc, h⟩
  · exact exec_request_controlled (s := { s with host := s.host.tail }) hs (decodeRequest_port code) h
  · refine resume_controlled ?_ rfl h
    rwa [State.pend_of_pending (s := s.passTime) hr]
  · refine exec_controlled (s := { s.passTime with op := none }) ?_ rfl hp h
    rwa [State.issue_of_op (s := s.passTime) hi]
  · exact hostMove_controlled hlines hop hp hpc h
  · exact runLine_controlled (s := s.passTime) hlines hop hp hpc h

end Sys2Proof.Machine

/-! PROOFS. Which move a running engine makes next, one equation for each (R15, R28, R154), and the statements about that
choice: the order of the moves, a request at once, the host's moves while idle, and the marks. -/

namespace Sys2Proof.Machine

variable {s : State}

/-! The next move (log 6, log 12). -/

theorem nextMove_presented {code : Byte} (hn : s.presentedNow = some code) :
    nextMove s = exec (decodeRequest code) { s with host := s.host.tail } := by
  simp only [nextMove, hn]

theorem nextMove_pending {r : Pending} (hn : s.presentedNow = none) (hp : s.pending = some r) :
    nextMove s = resume r { s.passTime with pending := none } := by
  simp only [nextMove, hn, hp]

theorem nextMove_op {i : Instr} (hn : s.presentedNow = none) (hp : s.pending = none) (ho : s.op = some i) :
    nextMove s = exec i { s.passTime with op := none } := by
  simp only [nextMove, hn, hp, ho]

theorem nextMove_advance (hn : s.presentedNow = none) (hp : s.pending = none) (ho : s.op = none) :
    nextMove s = advance s := by
  simp only [nextMove, hn, hp, ho]

theorem advance_nil (hpc : s.pc = []) : advance s = hostMove s := by
  simp only [advance, hpc]

theorem advance_cons {l : Label} {rest : List Label} (hpc : s.pc = l :: rest) : advance s = runLine l s.passTime := by
  simp only [advance, hpc]

/-- Settles O49: step looks at the marks right after the reset input. -/
theorem marksStopTheEngine : Obligations.MarksStopTheEngine := by
  intro s hr
  constructor
  · intro r hf
    simp [step, hr, hf]
  · intro r hf href
    simp [step, hr, hf, href]

/-- The probe's operation is issued and no other is under way (log 7). -/
theorem State.withFetchWord_eq {nbits w : Nat} {i : Instr} (h : decodeTableWord nbits w = some i) :
    s.withFetchWord nbits w = { s.issue i with pending := none } := by
  simp only [State.withFetchWord, h]

/-- Settles O48: the equations of the next move, the last for the state the probe leaves. -/
theorem stepRunsTheIssuedOperation : Obligations.StepRunsTheIssuedOperation := by
  intro s hr hn
  refine ⟨fun r hp => ?_, fun i hp ho => ?_, fun hp ho => ?_, fun nbits w i hi => ?_⟩
  · rw [step_of_running hr, nextMove_pending hn hp]
  · rw [step_of_running hr, nextMove_op hn hp ho]
  · rw [step_of_running hr, nextMove_advance hn hp ho]
  · rw [State.withFetchWord_eq hi, step_of_running (s := { s.issue i with pending := none }) hr,
      nextMove_op (s := { s.issue i with pending := none }) hn rfl rfl]
    rfl

/-- An idle engine with nothing issued or under way lets the host move (R148). -/
theorem step_hostMove {m : HostMove} {ms : List HostMove} (hr : s.running = true) (hop : s.op = none)
    (hp : s.pending = none) (hpc : s.pc = []) (hh : s.host = m :: ms) (hm : ∀ code, m ≠ .requestNow code) :
    step s = hostMove s := by
  have hn : s.presentedNow = none := by
    cases m <;> simp_all [State.presentedNow]
  rw [step_of_running hr, nextMove_advance hn hp hop, advance_nil hpc]

/-- A request that is refused while another runs (R154). -/
theorem exec_reentered {code : Byte} (ha : s.act ≠ .idle)
    (hc : code = 0x01 ∨ code = 0x02 ∨ (code = 0x03 ∧ s.act ≠ .inDispatch)) :
    exec (decodeRequest code) s = .next (s.refuse .reentered) := by
  rcases hc with rfl | rfl | ⟨rfl, hd⟩
  · exact if_pos ha
  · exact if_pos ha
  · exact if_pos (not_or.2 ⟨ha, hd⟩)

/-- Settles O43: one case for each move of the host, then the request at once. -/
theorem hostMovesAreTaken : Obligations.HostMovesAreTaken := by
  constructor
  · intro s ms hr hop hp hpc
    have hstep {m : HostMove} (hh : s.host = m :: ms) (hm : ∀ code, m ≠ .requestNow code) : step s = hostMove s :=
      step_hostMove hr hop hp hpc hh hm
    refine ⟨fun i b hh hi => ?_, fun i b hh hi => ?_, fun v hh => ?_, fun code hh => ?_⟩ <;>
      rw [hstep hh nofun, hostMove, hh]
    · refine ⟨State.writeFb i b { s with host := ms }, if_pos hi, State.readFb_writeFb_self i _, fun j hj => ?_, rfl, rfl⟩
      exact State.readFb_writeFb_other hj _
    · exact if_neg (BitVec.not_lt.2 hi)
    · exact ⟨_, rfl, rfl, rfl, rfl⟩
    · rfl
  · intro s ms code hr hh
    have hstep : step s = exec (decodeRequest code) { s with host := ms } := by
      rw [step_of_running hr, nextMove_presented (code := code) (by simp [State.presentedNow, hh]), hh]
      rfl
    refine ⟨hstep, fun ha hc => ?_⟩
    rw [hstep, exec_reentered (s := { s with host := ms }) ha hc]
    rfl

/-- Settles O24: the admission of each request, its conditions met. -/
theorem requestsAreAdmitted : Obligations.RequestsAreAdmitted := by
  intro s
  refine ⟨fun ha hm => ?_, fun ha hm => ?_, fun n ha hm hn => ?_⟩
  · exact (if_neg (not_not.2 ha)).trans (if_neg hm)
  · exact (if_neg (not_not.2 ha)).trans (if_neg (not_not.2 hm))
  · refine (if_neg (not_not.2 ha)).trans ((if_neg (not_not.2 hm)).trans ?_)
    rw [hn]
    rfl

/-! Unwritten registers (R24, R27). -/

theorem withWritten_of_none {α : Type} {x : Option α} {k : α → Answer} (h : x = none) :
    withWritten x s k = .next (s.raise .unwrittenRead) := by
  rw [h, withWritten_none]

/-- Two registers read one after the other, one of them unwritten. -/
theorem withWritten_unwritten {α β : Type} {x : Option α} {y : Option β} {k : α → β → Answer} (h : x = none ∨ y = none) :
    (withWritten x s fun a => withWritten y s (k a)) = .next (s.raise .unwrittenRead) := by
  cases x with
  | none => rfl
  | some a =>
    obtain rfl : y = none := h.resolve_left nofun
    rfl

/-- A turn of COPY_IN needs its count and both its cursors (R100). -/
theorem copyInTurn_unwritten (h : s.rx.size = none ∨ s.rx.rpa = none ∨ s.rx.ri = none) :
    copyInTurn s = .next (s.raise .unwrittenRead) := by
  unfold copyInTurn
  cases hn : s.rx.size with
  | none => rfl
  | some n =>
    rw [withWritten_some]
    exact withWritten_unwritten (h.resolve_left (by simp [hn]))

/-- A turn of COPY_OUT needs its count and both its cursors (R101). -/
theorem copyOutTurn_unwritten (h : s.tx.tlen = none ∨ s.tx.tpa = none ∨ s.tx.ti = none) :
    copyOutTurn s = .next (s.raise .unwrittenRead) := by
  unfold copyOutTurn
  cases hn : s.tx.tlen with
  | none => rfl
  | some n =>
    rw [withWritten_some]
    exact withWritten_unwritten (h.resolve_left (by simp [hn]))

/-- A line that reads an unwritten register raises UnwrittenRead at once. -/
theorem runLine_unwritten {l : Label} (h : l.reads s = false) : runLine l s = .next (s.raise .unwrittenRead) := by
  cases l <;> simp only [Label.reads, Bool.and_eq_false_iff, Option.isSome_eq_false_iff, Option.isNone_iff_eq_none,
    Bool.true_eq_false] at h
  case i3 => exact withWritten_of_none h
  case i7 => exact withWritten_of_none h
  case p2 => exact withWritten_of_none h
  case p3 => exact withWritten_of_none h
  case p4 => exact withWritten_of_none h
  case p5 => exact withWritten_of_none h
  case d3 => exact withWritten_of_none h
  case d4 => exact withWritten_of_none h
  case d5 => exact withWritten_unwritten h
  case d8 => exact withWritten_unwritten h
  case t1 => exact withWritten_of_none h
  case t3 => exact withWritten_unwritten h
  case t6 => exact withWritten_unwritten h

/-- Settles O22: the copies' operands, LEN, the lines and the copies under way. -/
theorem unwrittenReadRaises : Obligations.UnwrittenReadRaises := by
  intro s
  refine ⟨fun h => withWritten_unwritten h, fun h => withWritten_unwritten h, fun h => ?_, fun h ha hm => ?_,
    fun l hrest hl => ?_, fun hu hp h => ?_, fun hu hp h => ?_⟩
  · exact withWritten_of_none h
  · exact (if_neg (not_not.2 ha)).trans ((if_neg (not_not.2 hm)).trans (withWritten_of_none h))
  · obtain ⟨hu, ⟨rest, hpc⟩, hop, hp, _⟩ := State.restsAt_iff.1 hrest
    rw [step_line hu hp hop hpc]
    exact runLine_unwritten (s := s.passTime) hl
  · rw [step_pending hu hp]
    exact copyInTurn_unwritten (s := { s.passTime with pending := none }) h
  · rw [step_pending hu hp]
    exact copyOutTurn_unwritten (s := { s.passTime with pending := none }) h

end Sys2Proof.Machine

/-! PROOFS. What a step from a fitting control state can do to the mode, to the banks under a nested TRANSMIT, and to the
fault mark (R113, R150, R157). -/

namespace Sys2Proof.Machine

/-! The mode (R25, R113). -/

theorem copyInTurn_mode {s t : State} (h : copyInTurn s = .next t) : t.mode = s.mode := by
  rcases copyInTurn_cases h with ⟨_, rfl⟩ | ⟨n, pa, i, _, _, _, ⟨_, rfl⟩ | ⟨_, _, rfl⟩ | ⟨_, _, rfl⟩ | ⟨_, _, _, rfl⟩⟩ <;> rfl

/-- COPY_OUT writes no mode and no bank but its own. -/
theorem copyOutTurn_frame {s t : State} (h : copyOutTurn s = .next t) :
    t.mode = s.mode ∧ sameBanks s t := by
  rcases copyOutTurn_cases h with
    ⟨_, rfl⟩ | ⟨n, pa, i, _, _, _, ⟨_, rfl⟩ | ⟨_, _, rfl⟩ | ⟨_, _, _, rfl⟩ | ⟨b, _, _, _, ⟨_, rfl⟩ | ⟨_, rfl⟩⟩⟩ <;>
    exact ⟨rfl, rfl, rfl, rfl⟩

/-- No instruction's meaning writes the mode. -/
theorem exec_mode {i : Instr} {s t : State} (h : exec i s = .next t) : t.mode = s.mode := by
  rcases exec_cases h with ⟨r, rfl⟩ | ⟨r, rfl⟩ | ⟨a, rfl⟩ | ⟨a, d, rfl⟩ | ⟨a, _, rfl⟩ | ⟨a, v, _, rfl⟩ | ⟨_, _, _, rfl⟩ |
    ⟨_, _, _, rfl⟩ | ⟨n, _, _, _, _, rfl⟩ | ⟨_, rfl⟩ | ⟨n, bs, _, _, _, rfl⟩ | ⟨p, n, _, _, _, h⟩ | ⟨p, n, _, _, _, h⟩
  on_goal 12 => exact (copyInTurn_mode h :)
  on_goal 12 => exact ((copyOutTurn_frame h).1 :)
  all_goals rfl

theorem resume_mode {r : Pending} {s t : State} (h : resume r s = .next t) : t.mode = s.mode := by
  rcases resume_cases h with ⟨a, hi, _, rfl⟩ | ⟨a, lo, _, rfl⟩ | ⟨_, h⟩ | ⟨_, h⟩
  · rfl
  · rfl
  · exact copyInTurn_mode h
  · exact (copyOutTurn_frame h).1

theorem hostMove_mode {s t : State} (hr : s.resetAsserted = false) (h : hostMove s = .next t) : t.mode = s.mode := by
  rcases hostMove_cases h with rfl | rfl | ⟨code, rfl⟩ | ⟨i, b, _, rfl⟩ | ⟨v, rfl⟩ | ⟨hr', _⟩
  on_goal 6 => simp [hr] at hr'
  all_goals rfl

theorem dispatchMove_mode {s t : State} (h : dispatchMove s = .next t) : t.mode = s.mode := by
  rcases dispatchMove_cases h with rfl | ⟨code, rfl⟩ | ⟨i, b, _, rfl⟩ | ⟨v, rfl⟩ | rfl <;> rfl

/-- A running engine changes its mode at I2 and at I7 alone (R107, R113). -/
theorem nextMove_mode {s t : State} (hr : s.running = true) (h : nextMove s = .next t) : t.mode = s.mode ∨
    ∃ rest, (s.pc = .i2 :: rest ∧ t.mode = .modeNegotiation) ∨ (s.pc = .i7 :: rest ∧ t.mode = .rawActive) := by
  rcases nextMove_cases h with ⟨code, _, h⟩ | ⟨r, _, h⟩ | ⟨i, _, _, h⟩ | ⟨_, _, _, h⟩ | ⟨l, rest, _, _, hpc, h⟩
  · exact .inl (exec_mode h :)
  · exact .inl (resume_mode h :)
  · exact .inl (exec_mode h :)
  · exact .inl (hostMove_mode (State.resetAsserted_of_running hr) h)
  · by_cases hl : l = .dispatch
    · subst hl
      exact .inl (dispatchMove_mode h :)
    · rcases (runLine_effect hl h).mode with hm | ⟨rfl, hm⟩ | ⟨rfl, hm⟩
      · exact .inl hm
      · exact .inr ⟨rest, .inl ⟨hpc, hm⟩⟩
      · exact .inr ⟨rest, .inr ⟨hpc, hm⟩⟩

/-- A label of INIT stands on the stack in INIT alone. -/
theorem stackFits_init {a : Act} {l : Label} {rest : List Label} (h : stackFits a (l :: rest) = true)
    (hl : l.ofInit = true) : a = .inInit := by
  rcases stackFits_cons h with ⟨ha, _⟩ | ⟨_, hl', _⟩ | ⟨_, hl', _⟩ | ⟨_, rfl, _⟩ | ⟨_, hl', _⟩
  · exact ha
  · cases l <;> simp_all [Label.ofInit, Label.ofPoll]
  · cases l <;> simp_all [Label.ofInit, Label.ofTransmit]
  · cases hl
  · cases l <;> simp_all [Label.ofInit, Label.ofTransmit]

/-- Settles O53: the mode changes at I2, reached before RawActive, and at I7, reached in ModeNegotiation. -/
theorem modeOnlyAdvances : Obligations.ModeOnlyAdvances := by
  intro s t hs hr h hne
  obtain ⟨hstack, _, _, hmodes⟩ := State.controlFits_iff.1 hs
  rw [step_of_running hr] at h
  rcases nextMove_mode hr h with hm | ⟨rest, ⟨hpc, hm⟩ | ⟨hpc, hm⟩⟩
  · exact absurd hm hne
  · have hfit : modeFits s.mode .i2 = true := hmodes _ (by simp [hpc])
    refine ⟨stackFits_init (hpc ▸ hstack) rfl, .inl ⟨?_, hm⟩⟩
    cases hs : s.mode <;> simp_all [modeFits]
  · have hfit : modeFits s.mode .i7 = true := hmodes _ (by simp [hpc])
    refine ⟨stackFits_init (hpc ▸ hstack) rfl, .inr ⟨?_, hm⟩⟩
    simpa [modeFits, Label.ofInit] using hfit

/-! The banks under a nested TRANSMIT (R24, R150). -/

/-- The labels of TRANSMIT stand above the callout in a nested TRANSMIT. -/
theorem stackFits_nested {pc : List Label} (h : stackFits .inNestedTransmit pc = true) :
    ∃ l, pc = [l, .dispatch, .d8] ∧ l.ofTransmit = true := by
  unfold stackFits at h
  split at h <;> simp_all

/-- A request presented while another runs keeps the banks: it is refused, or TRANSMIT is admitted (R154). -/
theorem exec_request_banks {i : Instr} {s t : State} (hi : i.port = .host) (ha : s.act ≠ .idle)
    (h : exec i s = .next t) : sameBanks s t := by
  rcases exec_request_cases hi h with ⟨r, rfl⟩ | ⟨_, _, rfl⟩ | ⟨ha', _⟩ | ⟨ha', _⟩ | ⟨n, _, _, rfl⟩
  · exact ⟨rfl, rfl, rfl⟩
  · exact ⟨rfl, rfl, rfl⟩
  · exact absurd ha' ha
  · exact absurd ha' ha
  · exact ⟨rfl, rfl, rfl⟩

/-- What a line of TRANSMIT issues keeps the banks: a bus frame, or COPY_OUT. -/
theorem exec_issued_banks {i : Instr} {l : Label} {rm : RegMap} {s t : State} (hl : l.ofTransmit = true)
    (hi : l.issues rm i = true) (ha : s.act ≠ .idle) (h : exec i s = .next t) : sameBanks s t := by
  cases hport : i.port with
  | host => exact exec_request_banks hport ha h
  | bus =>
    rcases exec_bus_cases hport h with ⟨a, v, rfl⟩ | ⟨a, d, rfl⟩ | ⟨a, _, rfl⟩ | ⟨a, v, _, rfl⟩ <;> exact ⟨rfl, rfl, rfl⟩
  | internal =>
    rcases Instr.internal_cases hport with rfl | rfl | rfl | rfl
    · obtain rfl := Label.issues_receiveDrain hi
      cases hl
    · obtain rfl := Label.issues_copyIn hi
      cases hl
    · rcases withWritten_next h with ⟨_, rfl⟩ | ⟨p, _, h⟩
      · exact ⟨rfl, rfl, rfl⟩
      rcases withWritten_next h with ⟨_, rfl⟩ | ⟨n, _, h⟩
      · exact ⟨rfl, rfl, rfl⟩
      exact (copyOutTurn_frame h).2
    · obtain rfl := Label.issues_dispatch hi
      cases hl

/-- What a line of TRANSMIT has under way keeps the banks: a second frame, or COPY_OUT. -/
theorem resume_banks {r : Pending} {l : Label} {rm : RegMap} {s t : State} (hl : l.ofTransmit = true)
    (hr : l.pends rm r = true) (h : resume r s = .next t) : sameBanks s t := by
  rcases resume_cases h with ⟨a, hi, _, rfl⟩ | ⟨a, lo, _, rfl⟩ | ⟨rfl, _⟩ | ⟨_, h⟩
  · exact ⟨rfl, rfl, rfl⟩
  · exact ⟨rfl, rfl, rfl⟩
  · obtain rfl := Label.pends_copyIn hr
    cases hl
  · exact (copyOutTurn_frame h).2

/-- Settles O44: what a nested TRANSMIT can run is a request, an operation that one of its lines issued or has under way,
or one of its own lines. -/
theorem nestedTransmitKeepsTheBanks : Obligations.NestedTransmitKeepsTheBanks := by
  intro s t hs hr ha h
  obtain ⟨hstack, hop, hpend, _⟩ := State.controlFits_iff.1 hs
  obtain ⟨l, hpc, hl⟩ := stackFits_nested (ha ▸ hstack)
  have htop {l' : Label} {rest : List Label} (e : s.pc = l' :: rest) : l' = l := (List.cons.inj (e.symm.trans hpc)).1
  have hbusy : s.act ≠ .idle := by simp [ha]
  rw [step_of_running hr] at h
  rcases nextMove_cases h with ⟨code, _, h⟩ | ⟨r, hp, h⟩ | ⟨i, _, ho, h⟩ | ⟨_, _, hnil, _⟩ | ⟨l', rest, _, _, hpc', h⟩
  · exact exec_request_banks (s := { s with host := s.host.tail }) (decodeRequest_port code) hbusy h
  · obtain ⟨_, l', rest, hpc', hl'⟩ := pendingFits_some hpend hp
    obtain rfl := htop hpc'
    exact resume_banks (s := { s.passTime with pending := none }) hl hl' h
  · rcases opFits_some hop ho with hi | ⟨l', rest, hpc', hl'⟩
    · exact exec_request_banks (s := { s.passTime with op := none }) hi hbusy h
    · obtain rfl := htop hpc'
      exact exec_issued_banks (s := { s.passTime with op := none }) hl hl' hbusy h
  · simp [hnil] at hpc
  · obtain rfl := htop hpc'
    exact (runLine_effect (by rintro rfl; cases hl) h).banks hl

/-! The faults (R153, R157). -/

/-- What a label needs covers what its line reads (R24). -/
theorem Label.reads_of_needs {l : Label} {s : State} (h : l.needs s = true) : l.reads s = true := by
  have drain (hd : s.drainNeeds = true) :
      s.rx.rd0.isSome = true ∧ s.rx.size.isSome = true ∧ s.rx.drop.isSome = true := by
    obtain ⟨_, hrd0, _, n, hn, hdrop⟩ := State.drainNeeds_iff.1 hd
    exact ⟨hrd0, by simp [hn], by simp [hdrop]⟩
  cases l <;> simp_all [Label.needs, Label.reads]

/-- A COPY_IN under way does not fault (R103, R129, R157). -/
theorem copyInTurn_fault {s t : State} (hs : (s.pend .copyIn).controlled = true) (hv : s.cfg.valid = true)
    (h : copyInTurn s = .next t) : t.fault = s.fault := by
  obtain ⟨_, _, _, hdrain, hdrop, ⟨pa, hpa, hwin⟩, i, hi, _⟩ := State.copyIn_underway hs
  obtain ⟨_, _, _, m, hm, _⟩ := State.drainNeeds_iff.1 hdrain
  rcases copyInTurn_cases h with ⟨hnone, _⟩ | ⟨n, pa', i', hn, hpa', _, hend⟩
  · simp [hm, hpa, hi] at hnone
  obtain rfl : pa = pa' := by simpa [hpa] using hpa'
  rcases hend with ⟨_, rfl⟩ | ⟨_, hout, _⟩ | ⟨hlt, hcap, _⟩ | ⟨_, _, _, rfl⟩
  · rfl
  · simp [hwin hv] at hout
  · have hle := State.size_le_cap hdrain hdrop hn
    exfalso
    bv_omega
  · rfl

/-- A COPY_OUT under way faults at FB[CAP] or at an unwritten byte alone (R57, R101, R157). -/
theorem copyOutTurn_fault {s t : State} (hs : (s.pend .copyOut).controlled = true) (hv : s.cfg.valid = true)
    (h : copyOutTurn s = .next t) : t.fault = s.fault ∨ ∃ i, s.tx.ti = some i ∧
      ((t.fault = some .frameBufferBounds ∧ s.cfg.cap ≤ i) ∨ (t.fault = some .unwrittenRead ∧ s.readFb i.toNat = none)) := by
  obtain ⟨_, _, _, hlen, ⟨pa, hpa, hwin⟩, hti⟩ := State.copyOut_underway hs
  rcases copyOutTurn_cases h with ⟨hnone, _⟩ | ⟨n, pa', i, _, hpa', hi, hend⟩
  · rcases hnone with hnone | hnone | hnone <;> simp_all
  obtain rfl : pa = pa' := by simpa [hpa] using hpa'
  rcases hend with ⟨_, rfl⟩ | ⟨_, hcap, rfl⟩ | ⟨_, _, hb, rfl⟩ | ⟨b, _, _, _, ⟨hout, _⟩ | ⟨_, rfl⟩⟩
  · exact .inl rfl
  · exact .inr ⟨i, hi, .inl ⟨rfl, hcap⟩⟩
  · exact .inr ⟨i, hi, .inr ⟨rfl, hb⟩⟩
  · simp [hwin hv] at hout
  · exact .inl rfl

/-- A request faults where TRANSMIT finds LEN unwritten alone (R153). -/
theorem exec_request_fault {i : Instr} {s t : State} (hi : i.port = .host) (h : exec i s = .next t) :
    t.fault = s.fault ∨ (i = .transmit ∧ s.len = none ∧ t.fault = some .unwrittenRead) := by
  rcases exec_request_cases hi h with ⟨r, rfl⟩ | ⟨rfl, hn, rfl⟩ | ⟨_, _, rfl⟩ | ⟨_, _, rfl⟩ | ⟨n, _, _, rfl⟩
  · exact .inl rfl
  · exact .inr ⟨rfl, hn, rfl⟩
  · exact .inl rfl
  · exact .inl rfl
  · exact .inl rfl

/-- COPY_IN as D4 issues it does not fault. -/
theorem exec_copyIn_fault {s t : State} (hs : (s.issue .copyIn).controlled = true) (hop : s.op = none)
    (hp : s.pending = none) (hv : s.cfg.valid = true) (h : exec .copyIn s = .next t) : t.fault = s.fault := by
  have hlines := State.linesFit_of_controlled (State.controlled_of_issue hs hop hp)
  obtain ⟨_, _, hcopy, _⟩ := (State.controlled_iff.1 hs).2
  obtain ⟨l, rest, hpc, hl⟩ := State.issued_internal hs rfl
  obtain rfl := Label.issues_copyIn hl
  obtain ⟨hstack, _, hneeds⟩ := State.linesFit_top hlines hpc
  obtain ⟨_, rfl⟩ := stackFits_d4 hstack
  simp only [Label.needs, Bool.and_eq_true] at hneeds
  obtain ⟨_, _, hrcur, m, hm, _⟩ := State.drainNeeds_iff.1 hneeds.1
  rcases withWritten_next h with ⟨h0, _⟩ | ⟨p, _, h⟩
  · simp [h0] at hrcur
  rcases withWritten_next h with ⟨h0, _⟩ | ⟨n, _, h⟩
  · simp [h0] at hm
  exact (copyInTurn_fault (State.setRxCursor_underway hlines hop hpc (hcopy rfl)) hv h :)

/-- COPY_OUT as T5 issues it faults at an unwritten FB[0] alone. -/
theorem exec_copyOut_fault {s t : State} (hs : (s.issue .copyOut).controlled = true) (hop : s.op = none)
    (hp : s.pending = none) (hv : s.cfg.valid = true) (h : exec .copyOut s = .next t) :
    t.fault = s.fault ∨ (t.fault = some .unwrittenRead ∧ s.readFb 0 = none) := by
  have hlines := State.linesFit_of_controlled (State.controlled_of_issue hs hop hp)
  obtain ⟨l, rest, hpc, hl⟩ := State.issued_internal hs rfl
  obtain rfl := Label.issues_copyOut hl
  obtain ⟨_, _, hneeds⟩ := State.linesFit_top hlines hpc
  simp only [Label.needs, Bool.and_eq_true] at hneeds
  obtain ⟨htlen, hwr0⟩ := hneeds
  rcases withWritten_next h with ⟨h0, _⟩ | ⟨p, _, h⟩
  · simp [h0] at hwr0
  rcases withWritten_next h with ⟨h0, _⟩ | ⟨n, _, h⟩
  · simp [h0] at htlen
  rcases copyOutTurn_fault (State.setTxCursor_underway hlines hop hpc) hv h with hf | ⟨i, hi, hend⟩
  · exact .inl hf
  obtain rfl : 0 = i := by simpa using hi
  rcases hend with ⟨_, hcap⟩ | ⟨hf, hb⟩
  · have hpos := Config.cap_pos_of_valid hv
    have hzero : s.cfg.cap.toNat ≤ 0 := hcap
    omega
  · exact .inr ⟨hf, hb⟩

/-- DISPATCH as D8 issues it does not fault: LEN is the size of a frame that fits and is in FB (R132, R144). -/
theorem exec_dispatch_fault {s t : State} (hs : (s.issue .dispatch).controlled = true) (hop : s.op = none)
    (hp : s.pending = none) (h : exec .dispatch s = .next t) : t.fault = s.fault := by
  have hlines := State.linesFit_of_controlled (State.controlled_of_issue hs hop hp)
  obtain ⟨_, _, _, hcall, _⟩ := (State.controlled_iff.1 hs).2
  obtain ⟨l, rest, hpc, hl⟩ := State.issued_internal hs rfl
  obtain rfl := Label.issues_dispatch hl
  obtain ⟨_, _, hneeds⟩ := State.linesFit_top hlines hpc
  obtain ⟨hdrop, hlen⟩ : s.rx.drop = some false ∧ s.len = s.rx.size := hcall rfl
  simp only [Label.needs, Bool.and_eq_true] at hneeds
  obtain ⟨hdrain, hframe⟩ := hneeds
  obtain ⟨_, _, _, n, hn, _⟩ := State.drainNeeds_iff.1 hdrain
  obtain ⟨bs, hbs⟩ := State.readFbBytes_ok (s := s) n.toNat 0
    (by simpa [BitVec.le_def] using State.size_le_cap hdrain hdrop hn)
    (by simpa using State.frameWritten_iff.1 hframe hdrop n hn)
  have hout : exec .dispatch s = .next (s.callout n bs) := by
    simp only [exec, execDispatch, hlen, hn, withWritten_some, hbs]
  obtain rfl : s.callout n bs = t := by simpa [hout] using h
  rfl

/-- The faults of the issued operation, from a controlled state under a valid configuration. -/
theorem exec_fault {i : Instr} {s t : State} (hs : (s.issue i).controlled = true) (hop : s.op = none)
    (hp : s.pending = none) (hv : s.cfg.valid = true) (h : exec i s = .next t) :
    t.fault = s.fault ∨ (t.fault = some .unwrittenRead ∧
      ((i = .transmit ∧ s.len = none) ∨ (i = .copyOut ∧ s.readFb 0 = none))) := by
  cases hi : i.port with
  | host =>
    rcases exec_request_fault hi h with hf | ⟨hi, hn, hf⟩
    · exact .inl hf
    · exact .inr ⟨hf, .inl ⟨hi, hn⟩⟩
  | bus =>
    rcases exec_bus_cases hi h with ⟨a, v, rfl⟩ | ⟨a, d, rfl⟩ | ⟨a, _, rfl⟩ | ⟨a, v, _, rfl⟩ <;> exact .inl rfl
  | internal =>
    obtain rfl | rfl | rfl | rfl := Instr.internal_cases hi
    · cases h
      exact .inl rfl
    · exact .inl (exec_copyIn_fault hs hop hp hv h)
    · exact (exec_copyOut_fault hs hop hp hv h).imp_right fun ⟨hf, hb⟩ => ⟨hf, .inr ⟨rfl, hb⟩⟩
    · exact .inl (exec_dispatch_fault hs hop hp h)

/-- The faults of an operation under way, from a controlled state under a valid configuration. -/
theorem resume_fault {r : Pending} {s t : State} (hs : (s.pend r).controlled = true) (hv : s.cfg.valid = true)
    (h : resume r s = .next t) : t.fault = s.fault ∨ (r = .copyOut ∧ ∃ i, s.tx.ti = some i ∧
      ((t.fault = some .frameBufferBounds ∧ s.cfg.cap ≤ i) ∨
        (t.fault = some .unwrittenRead ∧ s.readFb i.toNat = none))) := by
  rcases resume_cases h with ⟨a, hi, rfl, rfl⟩ | ⟨a, lo, rfl, rfl⟩ | ⟨rfl, h⟩ | ⟨rfl, h⟩
  · exact .inl rfl
  · exact .inl rfl
  · exact .inl (copyInTurn_fault hs hv h)
  · exact (copyOutTurn_fault hs hv h).imp_right fun hend => ⟨rfl, hend⟩

theorem hostMove_fault {s t : State} (hf : s.fault = none) (h : hostMove s = .next t) : t.fault = none := by
  rcases hostMove_cases h with rfl | rfl | ⟨code, rfl⟩ | ⟨i, b, _, rfl⟩ | ⟨v, rfl⟩ | ⟨_, rfl⟩
  on_goal 6 => rfl
  all_goals exact hf

theorem dispatchMove_fault {s t : State} (h : dispatchMove s = .next t) : t.fault = s.fault := by
  rcases dispatchMove_cases h with rfl | ⟨code, rfl⟩ | ⟨i, b, _, rfl⟩ | ⟨v, rfl⟩ | rfl <;> rfl

/-- A line whose registers are written does not fault (R24). -/
theorem runLine_fault {l : Label} {s t : State} (hn : l.needs s = true) (h : runLine l s = .next t) : t.fault = s.fault := by
  by_cases hl : l = .dispatch
  · subst hl
    exact dispatchMove_fault h
  · rcases (runLine_effect hl h).fault with hf | hf
    · exact hf
    · simp [Label.reads_of_needs hn] at hf

theorem decodeRequest_eq_transmit {code : Byte} (h : decodeRequest code = .transmit) : code = 0x03 := by
  unfold decodeRequest at h
  split_ifs at h
  assumption

/-- Settles O59: the requests fault at an unwritten LEN, COPY_OUT at a missing byte of FB, and nothing else faults. -/
theorem faultsComeFromTheTransmitSideOnly : Obligations.FaultsComeFromTheTransmitSideOnly := by
  intro s t r hs hv hf h ht
  have hclean : t.fault ≠ s.fault := by simp [hf, ht]
  rcases step_cases h with ⟨_, rfl⟩ | ⟨_, h⟩
  · exact absurd hf.symm hclean
  rcases nextMove_cases h with ⟨code, hcode, h⟩ | ⟨p, hp, h⟩ | ⟨i, hp, hi, h⟩ | ⟨_, _, _, h⟩ | ⟨l, rest, _, _, hpc, h⟩
  · rcases exec_request_fault (decodeRequest_port code) h with he | ⟨hi, hn, he⟩
    · exact absurd he hclean
    · obtain rfl : r = .unwrittenRead := by simpa [ht] using he
      exact .inr ⟨rfl, .inl ⟨hn, .inr (decodeRequest_eq_transmit hi ▸ hcode)⟩⟩
  · rcases resume_fault (s := { s.passTime with pending := none }) (by rwa [State.pend_of_pending (s := s.passTime) hp]) hv h with
      he | ⟨rfl, i, hi, ⟨he, hcap⟩ | ⟨he, hb⟩⟩
    · exact absurd he hclean
    · obtain rfl : r = .frameBufferBounds := by simpa [ht] using he
      exact .inl ⟨rfl, hp, i, hi, hcap⟩
    · obtain rfl : r = .unwrittenRead := by simpa [ht] using he
      exact .inr ⟨rfl, .inr (.inr ⟨hp, i, hi, hb⟩)⟩
  · rcases exec_fault (s := { s.passTime with op := none }) (by rwa [State.issue_of_op (s := s.passTime) hi]) rfl hp hv h with
      he | ⟨he, ⟨rfl, hn⟩ | ⟨rfl, hb⟩⟩
    · exact absurd he hclean
    · obtain rfl : r = .unwrittenRead := by simpa [ht] using he
      exact .inr ⟨rfl, .inl ⟨hn, .inl hi⟩⟩
    · obtain rfl : r = .unwrittenRead := by simpa [ht] using he
      exact .inr ⟨rfl, .inr (.inl ⟨hi, hb⟩)⟩
  · exact absurd ((hostMove_fault hf h).trans hf.symm) hclean
  · have hneeds := (State.linesFit_top (State.linesFit_of_controlled hs) hpc).2.2
    exact absurd (runLine_fault (s := s.passTime) hneeds h) hclean

end Sys2Proof.Machine

/-! PROOFS. No operation, line or meaning looks at the host's coming moves: what it answers before other moves is the same
answer with those moves in it. So a host that pauses is a host with nothing to do, and a reset after `k` pauses meets the
state of `k` undisturbed steps (R171, log 8). -/

namespace Sys2Proof.Machine

/-- The state before other moves of the host. -/
def State.withHost (ms : List HostMove) (s : State) : State := { s with host := ms }

/-- The answer before other moves of the host. -/
def answerWithHost (ms : List HostMove) : Answer → Answer
  | .next t => .next (t.withHost ms)
  | .fault r => .fault r
  | .refused r => .refused r

variable {ms : List HostMove} {s : State}

/-! How answers are built. -/

theorem ite_withHost {p : Prop} [Decidable p] {a b a' b' : Answer} (ha : answerWithHost ms a = a')
    (hb : answerWithHost ms b = b') : answerWithHost ms (if p then a else b) = if p then a' else b' := by
  split
  · exact ha
  · exact hb

theorem withWritten_withHost {α : Type} {x : Option α} {k k' : α → Answer} (hk : ∀ v, answerWithHost ms (k v) = k' v) :
    answerWithHost ms (withWritten x s k) = withWritten x (s.withHost ms) k' := by
  cases x with
  | none => rfl
  | some v => exact hk v

theorem await_withHost {i : Instr} {k k' : Answer} (hk : answerWithHost ms k = k') :
    answerWithHost ms (await i s k) = await i (s.withHost ms) k' := by
  have ho : (s.withHost ms).opResult = s.opResult := rfl
  unfold await
  rw [ho]
  cases s.opResult with
  | empty => rfl
  | done => exact hk
  | data v => exact hk

theorem awaitData_withHost {i : Instr} {k k' : Word → Answer} (hk : ∀ v, answerWithHost ms (k v) = k' v) :
    answerWithHost ms (awaitData i s k) = awaitData i (s.withHost ms) k' := by
  have ho : (s.withHost ms).opResult = s.opResult := rfl
  unfold awaitData
  rw [ho]
  cases s.opResult with
  | empty => rfl
  | done => rfl
  | data v => exact hk v

/-! The meanings (R92 to R154). -/

theorem State.readFbBytes_withHost (n : Nat) : ∀ i, (s.withHost ms).readFbBytes i n = s.readFbBytes i n := by
  induction n with
  | zero => exact fun _ => rfl
  | succ n ih =>
    intro i
    have hcfg : (s.withHost ms).cfg = s.cfg := rfl
    have hfb : (s.withHost ms).readFb i = s.readFb i := rfl
    rw [State.readFbBytes, State.readFbBytes, ih, hcfg, hfb]

theorem copyInTurn_withHost (s : State) : answerWithHost ms (copyInTurn s) = copyInTurn (s.withHost ms) :=
  withWritten_withHost fun _ => withWritten_withHost fun _ => withWritten_withHost fun _ =>
    ite_withHost rfl (ite_withHost rfl (ite_withHost rfl rfl))

theorem copyOutTurn_withHost (s : State) : answerWithHost ms (copyOutTurn s) = copyOutTurn (s.withHost ms) :=
  withWritten_withHost fun _ => withWritten_withHost fun _ => withWritten_withHost fun _ =>
    ite_withHost rfl (ite_withHost rfl (withWritten_withHost fun _ => ite_withHost rfl rfl))

theorem execDispatch_withHost (s : State) : answerWithHost ms (execDispatch s) = execDispatch (s.withHost ms) :=
  withWritten_withHost fun n => by
    rw [State.readFbBytes_withHost]
    cases s.readFbBytes 0 n.toNat <;> rfl

theorem exec_withHost (i : Instr) (s : State) : answerWithHost ms (exec i s) = exec i (s.withHost ms) := by
  cases i
  case init => exact ite_withHost rfl (ite_withHost rfl rfl)
  case pollOnce => exact ite_withHost rfl (ite_withHost rfl rfl)
  case transmit => exact ite_withHost rfl (ite_withHost rfl (withWritten_withHost fun _ => rfl))
  case copyIn => exact withWritten_withHost fun _ => withWritten_withHost fun _ => copyInTurn_withHost _
  case copyOut => exact withWritten_withHost fun _ => withWritten_withHost fun _ => copyOutTurn_withHost _
  case dispatch => exact execDispatch_withHost s
  all_goals rfl

theorem resume_withHost (r : Pending) (s : State) : answerWithHost ms (resume r s) = resume r (s.withHost ms) := by
  cases r with
  | read16Low a hi => rfl
  | write16Low a lo => rfl
  | copyIn => exact copyInTurn_withHost s
  | copyOut => exact copyOutTurn_withHost s

/-! Frame Dispatch's moves and the lines (R107, R115, R125, R134, R145). -/

theorem dispatchMove_withHost (s : State) : answerWithHost ms (dispatchMove s) = dispatchMove (s.withHost ms) := by
  have hd : (s.withHost ms).dispatch = s.dispatch := rfl
  unfold dispatchMove
  rw [hd]
  match s.dispatch with
  | [] => rfl
  | .request code :: _ => rfl
  | .writeFb i b :: _ => exact ite_withHost rfl rfl
  | .writeLen v :: _ => rfl
  | .ret :: _ => rfl

theorem lineD8_withHost (s : State) : answerWithHost ms (lineD8 s) = lineD8 (s.withHost ms) :=
  withWritten_withHost fun _ => withWritten_withHost fun _ => ite_withHost rfl <| by
    have ho : (s.withHost ms).opResult = s.opResult := rfl
    rw [ho]
    cases s.opResult <;> rfl

theorem lineT3_withHost (s : State) : answerWithHost ms (lineT3 s) = lineT3 (s.withHost ms) :=
  withWritten_withHost fun _ => withWritten_withHost fun _ => by
    have ho : (s.withHost ms).opResult = s.opResult := rfl
    rw [ho]
    cases s.opResult with
    | empty => exact ite_withHost rfl rfl
    | done => rfl
    | data v => rfl

theorem runLine_withHost (l : Label) (s : State) : answerWithHost ms (runLine l s) = runLine l (s.withHost ms) := by
  cases l
  case dispatch => exact dispatchMove_withHost s
  case i3 => exact withWritten_withHost fun _ => ite_withHost rfl rfl
  case i6 => exact awaitData_withHost fun _ => rfl
  case i7 => exact withWritten_withHost fun _ => ite_withHost rfl rfl
  case p1 => exact awaitData_withHost fun _ => ite_withHost rfl rfl
  case p2 => exact withWritten_withHost fun _ => ite_withHost (awaitData_withHost fun _ => rfl) rfl
  case p3 => exact withWritten_withHost fun _ => ite_withHost (await_withHost rfl) rfl
  case p4 => exact withWritten_withHost fun _ => ite_withHost rfl rfl
  case p5 => exact withWritten_withHost fun _ => await_withHost rfl
  case d1 => exact awaitData_withHost fun _ => rfl
  case d2 => exact awaitData_withHost fun _ => rfl
  case d3 => exact withWritten_withHost fun _ => rfl
  case d4 => exact withWritten_withHost fun _ => ite_withHost rfl (await_withHost rfl)
  case d5 => exact withWritten_withHost fun _ => withWritten_withHost fun _ => await_withHost rfl
  case d7 => exact ite_withHost (await_withHost rfl) rfl
  case d8 => exact lineD8_withHost s
  case d9 => exact ite_withHost (await_withHost rfl) rfl
  case t1 => exact withWritten_withHost fun _ => ite_withHost rfl rfl
  case t2 => rfl
  case t3 => exact lineT3_withHost s
  case t4 => exact awaitData_withHost fun _ => rfl
  case t6 => exact withWritten_withHost fun _ => withWritten_withHost fun _ => await_withHost rfl
  all_goals exact await_withHost rfl

/-! Steps and runs while the host pauses. -/

/-- The host has no move to come, or pauses. -/
def hostQuiet (hs : List HostMove) : Prop := hs = [] ∨ ∃ ms, hs = .pause :: ms

theorem hostMove_withHost {hs : List HostMove} (hq : hostQuiet hs) (s : State) :
    hostMove (s.withHost hs) = answerWithHost (afterPause hs) (hostMove (s.withHost [])) := by
  obtain rfl | ⟨ms, rfl⟩ := hq <;> rfl

theorem nextMove_withHost {hs : List HostMove} (hq : hostQuiet hs) (s : State) :
    nextMove (s.withHost hs) = answerWithHost (afterPause hs) (nextMove (s.withHost [])) := by
  have hnow : (s.withHost hs).presentedNow = none := by obtain rfl | ⟨ms, rfl⟩ := hq <;> rfl
  have hnow' : (s.withHost []).presentedNow = none := rfl
  cases hp : s.pending with
  | some r =>
    rw [nextMove_pending hnow hp, nextMove_pending hnow' hp]
    exact (resume_withHost r { s.withHost [] with pending := none }).symm
  | none =>
    cases ho : s.op with
    | some i =>
      rw [nextMove_op hnow hp ho, nextMove_op hnow' hp ho]
      exact (exec_withHost i { s.withHost [] with op := none }).symm
    | none =>
      rw [nextMove_advance hnow hp ho, nextMove_advance hnow' hp ho]
      cases hpc : s.pc with
      | nil =>
        rw [advance_nil (s := s.withHost hs) hpc, advance_nil (s := s.withHost []) hpc]
        exact hostMove_withHost hq s
      | cons l rest =>
        rw [advance_cons (s := s.withHost hs) hpc, advance_cons (s := s.withHost []) hpc]
        exact (runLine_withHost l (s.withHost [])).symm

/-- A host that pauses lets the engine take the step it takes with no host move to come; the pause is then over (log 8). -/
theorem step_withHost {hs : List HostMove} (hq : hostQuiet hs) (s : State) :
    step (s.withHost hs) = answerWithHost (afterPause hs) (step (s.withHost [])) := by
  have hreset : (s.withHost hs).resetAsserted = false := by obtain rfl | ⟨ms, rfl⟩ := hq <;> rfl
  have hreset' : (s.withHost []).resetAsserted = false := rfl
  have hfault (hs) : (s.withHost hs).fault = s.fault := rfl
  have hrefused (hs) : (s.withHost hs).refused = s.refused := rfl
  simp only [step, hreset, hreset', hfault, hrefused]
  cases s.fault with
  | some r => rfl
  | none =>
    cases s.refused with
    | some r => rfl
    | none => exact nextMove_withHost hq s

/-- A step with no host move to come leaves none. -/
theorem step_withHost_nil {t : State} (h : step (s.withHost []) = .next t) : t = t.withHost [] := by
  have hself := step_withHost (hs := []) (.inl rfl) s
  rw [h] at hself
  simpa [answerWithHost, afterPause] using hself

/-- A reset after `k` pauses: the engine is reset at the state of `k` steps with no host move to come (R171). -/
theorem run_reset_after_pauses (ms : List HostMove) (k : Nat) : ∀ {s t : State}, run k (s.withHost []) = .next t →
    run (k + 1) (s.withHost (List.replicate k .pause ++ .reset :: ms)) =
      .next (State.resetWith s.cfg t.device ms t.dispatch) := by
  induction k with
  | zero =>
    intro s t h
    cases h
    rfl
  | succ k ih =>
    intro s t h
    cases hs : step (s.withHost []) with
    | fault r => simp [run, hs] at h
    | refused r => simp [run, hs] at h
    | next u =>
      rw [show run (k + 1) (s.withHost []) = run k u by simp only [run, hs], step_withHost_nil hs] at h
      have hpause : step (s.withHost (.pause :: (List.replicate k .pause ++ .reset :: ms))) =
          .next (u.withHost (List.replicate k .pause ++ .reset :: ms)) := by
        rw [step_withHost (.inr ⟨_, rfl⟩), hs]
        rfl
      have hcfg : u.cfg = s.cfg := configurationIsNeverWritten (s.withHost []) _ hs
      rw [List.replicate_succ, List.cons_append, run, hpause, ← hcfg]
      exact ih h

/-- Settles O60: the pauses are the steps of the engine that the reset then abandons. -/
theorem resetAbandonsTheRequest : Obligations.ResetAbandonsTheRequest := by
  intro s t k ms hhost h
  have hself : s = s.withHost (List.replicate k .pause ++ .reset :: ms) := by rw [← hhost]; rfl
  rw [hself]
  exact run_reset_after_pauses ms k h

end Sys2Proof.Machine

/-! PROOFS. The device's contract as far as the register transport shows it: its answers, its reads, write-1-to-clear and the
soft reset (R32, R47, R48, R51, R173). -/

namespace Sys2Proof.Machine

/-- Settles O11: the device's coming turn tells its answer. -/
theorem deviceMayAnswerAnyByte : Obligations.DeviceMayAnswerAnyByte := by
  intro a b s ts hts
  have hanswer : (s.device.read s.cfg a).1 = b := Device.read_of_answer hts rfl
  refine ⟨_, rfl, ?_, ?_⟩
  · rw [State.answer_opResult, busRead_fst, hanswer]
  · rw [State.answer_h, busRead_h, hanswer]

/-- A device whose coming turn changes nothing holds after it what it held (R69). -/
theorem Device.takeTurn_held {c : Config} {dev : Device} (h : ∀ x ∈ dev.turns.head?, x.changes = []) (a : Word) :
    (dev.takeTurn c).held c a = dev.held c a := by
  unfold Device.takeTurn
  cases hts : dev.turns with
  | nil => rfl
  | cons u us =>
    have hu : u.changes = [] := h u (by simp [hts])
    simp only [hu, Device.change]
    rfl

/-- Settles O12: after a read the device holds what its own turn left. -/
theorem readingClearsNothing : Obligations.ReadingClearsNothing := by
  intro a a' s t hturn h
  obtain rfl : (busRead a s).2.answer (.data (zeroExtend (busRead a s).1)) = t := by
    simpa [exec, execRead8, runRead] using h
  rw [State.answer_device, busRead_device, Device.read_held, Device.takeTurn_held hturn]

/-- A write to an interrupt register stores the flags left (R47). -/
theorem Device.take_interrupt {c : Config} {a : Word} {old : Byte} {dev : Device}
    (ha : a = c.regmap.aIr ∨ a = s0Ir c.regmap) (hmr : a ≠ c.regmap.aMr) (hold : dev.held c a = some old) (v : Byte) :
    dev.take c a v = dev.store c a (writeOneToClear old v) := by
  rw [Device.take, if_neg fun h => hmr h.1, if_pos ha, hold]

/-- Write-1-to-clear, bit by bit (R47). -/
theorem writeOneToClear_getLsbD (old v : Byte) {i : Nat} (hi : i < 8) :
    (writeOneToClear old v).getLsbD i = (old.getLsbD i && !v.getLsbD i) := by
  simp [writeOneToClear, hi]

/-- Settles O13: the write stores the cleared flags at its own address alone. -/
theorem writeOneClearsTheFlag : Obligations.WriteOneClearsTheFlag := by
  intro c a v old dev ha hmr hold
  rw [Device.take_interrupt ha hmr hold]
  exact ⟨⟨_, Device.held_store_self c dev a _, fun i hi => writeOneToClear_getLsbD old v hi⟩,
    fun a' ha' => Device.held_store_other ha' c dev _⟩

/-- After a soft reset the device holds its reset values, whatever it held (R32, R173). -/
theorem Device.write_softReset_held {c : Config} {v : Byte} (hv : flagSet v c.regmap.mrRst = true) (dev : Device) (a : Word) :
    (dev.write c c.regmap.aMr v).held c a = deviceResetByte c a.toNat := by
  rw [Device.write, Device.take, if_pos ⟨rfl, hv⟩]
  rfl

/-- Settles O15: the soft reset empties what the device holds beside its reset values, which for the default configuration
are those of the table. -/
theorem softResetRestoresTheDevice : Obligations.SoftResetRestoresTheDevice := by
  constructor
  · intro s a hrst
    refine ⟨_, rfl, ?_⟩
    rw [State.answer_device, busWrite_device]
    exact Device.write_softReset_held hrst s.device a
  · simp only [List.forall_mem_cons, List.not_mem_nil, false_imp_iff, implies_true, and_true]
    and_intros <;> rfl

end Sys2Proof.Machine

/-! PROOFS. The bus traffic of one step: every frame is one R56 and R88 allow, because the line at the top label issued it or
has it under way, or because the copy that makes it has checked its window (R100, R101). -/

namespace Sys2Proof.Machine

/-- The history is as before, or one allowed event longer (R15, R56, R88). -/
def State.allowedEffect (s t : State) : Prop := t.h = s.h ∨ ∃ e, eventAllowed s.cfg e = true ∧ t.h = s.h ++ [e]

theorem State.allowedEffect_read {s t : State} {a : Word} (ha : readAllowed s.cfg a = true)
    (h : t.h = (busRead a s).2.h) : s.allowedEffect t := .inr ⟨.r8 a (s.device.read s.cfg a).1, ha, h⟩

theorem State.allowedEffect_write {s t : State} {a : Word} {d : Byte} (ha : writeAllowed s.cfg a d = true)
    (h : t.h = (busWrite a d s).h) : s.allowedEffect t := .inr ⟨.w8 a d, ha, h⟩

/-- An allowed move keeps an allowed history allowed. -/
theorem State.allowedEffect_all {s t : State} (h : s.allowedEffect t) (hs : s.h.all (eventAllowed s.cfg) = true) :
    t.h.all (eventAllowed s.cfg) = true := by
  rcases h with hh | ⟨e, he, hh⟩ <;> rw [hh]
  · exact hs
  · rw [List.all_append, hs, List.all_cons, he]
    rfl

/-! The allowed addresses (R56, R78, R88). -/

theorem readAllowed_of_named {c : Config} {a : Word} (h : a ∈ namedReads c.regmap) : readAllowed c a = true := by
  simp only [namedReads, List.mem_cons, List.not_mem_nil, or_false] at h
  rcases h with rfl | rfl | rfl <;> simp [readAllowed]

theorem writeAllowed_of_named {c : Config} {a : Word} {d : Byte} (h : (a, d) ∈ namedWrites c.regmap) :
    writeAllowed c a d = true := by
  simp [writeAllowed, h]

theorem readAllowed_of_inWindow {c : Config} {a : Word} (h : inWindow c.rxBase c.rxMask a = true) :
    readAllowed c a = true := by
  simp [readAllowed, h]

theorem writeAllowed_of_inWindow {c : Config} {a : Word} (h : inWindow c.txBase c.txMask a = true) (d : Byte) :
    writeAllowed c a d = true := by
  simp [writeAllowed, h]

/-- A line reads 16-bit registers at the received size, the read pointer, the free space and the write pointer alone
(R126, R128, R136, R137). -/
theorem Label.issues_read16 {l : Label} {rm : RegMap} {a : Word} (h : l.issues rm (.read16 a) = true) :
    a = s0RxRsr rm ∨ a = s0RxRd rm ∨ a = s0TxFsr rm ∨ a = s0TxWr rm := by
  cases l <;> simp_all [Label.issues]

/-- A line writes 16-bit registers at the two pointers alone (R130, R139). -/
theorem Label.issues_write16 {l : Label} {rm : RegMap} {a v : Word} (h : l.issues rm (.write16 a v) = true) :
    a = s0RxRd rm ∨ a = s0TxWr rm := by
  cases l <;> simp_all [Label.issues]

/-- The second frame of a READ16 under way is that of a READ16 its line issues (R76). -/
theorem Label.issues_of_pends_read16Low {l : Label} {rm : RegMap} {a : Word} {hi : Byte}
    (h : l.pends rm (.read16Low a hi) = true) : ∃ b, a = nextAddr b ∧ l.issues rm (.read16 b) = true := by
  cases l <;> simp_all [Label.issues, Label.pends, Pending.readsLowOf, Pending.writesLowOf]

/-- The second frame of a WRITE16 under way is that of a WRITE16 its line issues (R77). -/
theorem Label.issues_of_pends_write16Low {l : Label} {rm : RegMap} {a : Word} {lo : Byte}
    (h : l.pends rm (.write16Low a lo) = true) : ∃ b, a = nextAddr b ∧ l.issues rm (.write16 b 0) = true := by
  cases l <;> simp_all [Label.issues, Label.pends, Pending.readsLowOf, Pending.writesLowOf]

/-- Both frames of a READ16 that a line issues are allowed. -/
theorem readAllowed_of_issues {c : Config} {l : Label} {a : Word} (h : l.issues c.regmap (.read16 a) = true) :
    readAllowed c a = true ∧ readAllowed c (nextAddr a) = true := by
  rcases Label.issues_read16 h with rfl | rfl | rfl | rfl <;> simp [readAllowed]

/-- Both frames of a WRITE16 that a line issues are allowed, whatever they write. -/
theorem writeAllowed_of_issues {c : Config} {l : Label} {a v : Word} (h : l.issues c.regmap (.write16 a v) = true)
    (d : Byte) : writeAllowed c a d = true ∧ writeAllowed c (nextAddr a) d = true := by
  rcases Label.issues_write16 h with rfl | rfl <;> simp [writeAllowed]

/-! The moves. -/

/-- A turn of COPY_IN reads inside the RX window (R100). -/
theorem copyInTurn_allowed {s t : State} (h : copyInTurn s = .next t) : s.allowedEffect t := by
  rcases copyInTurn_cases h with ⟨_, rfl⟩ | ⟨n, pa, i, _, _, _, ⟨_, rfl⟩ | ⟨_, _, rfl⟩ | ⟨_, _, rfl⟩ | ⟨_, hw, _, rfl⟩⟩
  · exact .inl rfl
  · exact .inl rfl
  · exact .inl rfl
  · exact .inl rfl
  · exact State.allowedEffect_read (readAllowed_of_inWindow hw) rfl

/-- A turn of COPY_OUT writes inside the TX window (R101). -/
theorem copyOutTurn_allowed {s t : State} (h : copyOutTurn s = .next t) : s.allowedEffect t := by
  rcases copyOutTurn_cases h with
    ⟨_, rfl⟩ | ⟨n, pa, i, _, _, _, ⟨_, rfl⟩ | ⟨_, _, rfl⟩ | ⟨_, _, _, rfl⟩ | ⟨b, _, _, _, ⟨_, rfl⟩ | ⟨hw, rfl⟩⟩⟩
  · exact .inl rfl
  · exact .inl rfl
  · exact .inl rfl
  · exact .inl rfl
  · exact .inl rfl
  · exact State.allowedEffect_write (writeAllowed_of_inWindow hw b) rfl

/-- A request makes no frame and appends no event when it is taken up (R107, R115, R134, R154). -/
theorem exec_request_h {i : Instr} {s t : State} (hi : i.port = .host) (h : exec i s = .next t) : t.h = s.h := by
  rcases exec_request_cases hi h with ⟨r, rfl⟩ | ⟨_, _, rfl⟩ | ⟨_, _, rfl⟩ | ⟨_, _, rfl⟩ | ⟨n, _, _, rfl⟩ <;> rfl

/-- A bus operation that a line issues: a 16-bit access of that line, or a named frame (R78). -/
theorem exec_bus_allowed {i : Instr} {l : Label} {s t : State} (hi : i.port = .bus)
    (hl : l.issues s.cfg.regmap i = true) (h : exec i s = .next t) : s.allowedEffect t := by
  have rd {a : Word} (ha : a ∈ namedReads s.cfg.regmap) (h : runRead a s = .next t) : s.allowedEffect t := by
    cases h
    exact State.allowedEffect_read (readAllowed_of_named ha) rfl
  have wr {a : Word} {d : Byte} (ha : writeAllowed s.cfg a d = true) (h : runWrite a d s = .next t) :
      s.allowedEffect t := by
    cases h
    exact State.allowedEffect_write ha rfl
  cases i <;> try cases hi
  case read8 => cases l <;> cases hl
  case write8 => cases l <;> cases hl
  case read16 a =>
    cases h
    exact State.allowedEffect_read (readAllowed_of_issues hl).1 rfl
  case write16 a v =>
    cases h
    exact State.allowedEffect_write (writeAllowed_of_issues hl _).1 rfl
  case readSr => exact rd (by simp [namedReads]) h
  case readIr => exact rd (by simp [namedReads]) h
  case readS0Ir => exact rd (by simp [namedReads]) h
  case ackIr v => exact wr (by simp [writeAllowed]) h
  all_goals exact wr (writeAllowed_of_named (by simp [namedWrites])) h

/-- A read of a register is allowed when what follows it is: an unwritten one appends nothing (R153). -/
theorem withWritten_allowed {α : Type} {x : Option α} {s t : State} {k : α → Answer}
    (hk : ∀ v, k v = .next t → s.allowedEffect t) (h : withWritten x s k = .next t) : s.allowedEffect t := by
  rcases withWritten_next h with ⟨_, rfl⟩ | ⟨v, _, h⟩
  · exact .inl rfl
  · exact hk v h

/-- An internal operation: the drain's entry, a copy's first turn or the callout. -/
theorem exec_internal_allowed {i : Instr} {s t : State} (hi : i.port = .internal) (h : exec i s = .next t) :
    s.allowedEffect t := by
  rcases Instr.internal_cases hi with rfl | rfl | rfl | rfl
  · cases h
    exact .inl rfl
  · refine withWritten_allowed (fun p => withWritten_allowed fun n h => ?_) h
    exact (copyInTurn_allowed h :)
  · refine withWritten_allowed (fun p => withWritten_allowed fun n h => ?_) h
    exact (copyOutTurn_allowed h :)
  · refine withWritten_allowed (fun n h => ?_) h
    split at h <;> cases h
    · exact .inl rfl
    · exact .inr ⟨.dispatch n _, rfl, rfl⟩

/-- The issued operation is a request or the top label's. -/
theorem exec_allowed {i : Instr} {s t : State}
    (hi : i.port = .host ∨ ∃ l rest, s.pc = l :: rest ∧ l.issues s.cfg.regmap i = true) (h : exec i s = .next t) :
    s.allowedEffect t := by
  cases hport : i.port with
  | host => exact .inl (exec_request_h hport h)
  | internal => exact exec_internal_allowed hport h
  | bus =>
    obtain hhost | ⟨l, rest, _, hl⟩ := hi
    · simp [hport] at hhost
    · exact exec_bus_allowed hport hl h

/-- The rest of the operation that the top label has under way. -/
theorem resume_allowed {r : Pending} {l : Label} {s t : State} (hl : l.pends s.cfg.regmap r = true)
    (h : resume r s = .next t) : s.allowedEffect t := by
  rcases resume_cases h with ⟨a, hi, rfl, rfl⟩ | ⟨a, lo, rfl, rfl⟩ | ⟨_, h⟩ | ⟨_, h⟩
  · obtain ⟨b, rfl, hb⟩ := Label.issues_of_pends_read16Low hl
    exact State.allowedEffect_read (readAllowed_of_issues hb).2 rfl
  · obtain ⟨b, rfl, hb⟩ := Label.issues_of_pends_write16Low hl
    exact State.allowedEffect_write (writeAllowed_of_issues hb lo).2 rfl
  · exact copyInTurn_allowed h
  · exact copyOutTurn_allowed h

theorem hostMove_h {s t : State} (hr : s.resetAsserted = false) (h : hostMove s = .next t) : t.h = s.h := by
  rcases hostMove_cases h with rfl | rfl | ⟨code, rfl⟩ | ⟨i, b, _, rfl⟩ | ⟨v, rfl⟩ | ⟨hr', _⟩
  on_goal 6 => simp [hr] at hr'
  all_goals rfl

theorem dispatchMove_h {s t : State} (h : dispatchMove s = .next t) : t.h = s.h := by
  rcases dispatchMove_cases h with rfl | ⟨code, rfl⟩ | ⟨i, b, _, rfl⟩ | ⟨v, rfl⟩ | rfl <;> rfl

/-- A line makes no frame of its own. -/
theorem runLine_allowed {l : Label} {s t : State} (h : runLine l s = .next t) : s.allowedEffect t := by
  by_cases hl : l = .dispatch
  · subst hl
    exact .inl (dispatchMove_h h)
  · exact (runLine_effect hl h).h.imp_right fun ⟨r, hh⟩ => ⟨.ret r, rfl, hh⟩

/-- Settles O58: from a controlled state the frame of a step is one that the top label's line issued or has under way, or one
inside a copy's window. -/
theorem trafficStaysAllowed : Obligations.TrafficStaysAllowed := by
  intro s t hs hall h
  have hcfg := configurationIsNeverWritten s t h
  rcases step_cases h with ⟨_, rfl⟩ | ⟨hr, h⟩
  · rfl
  have heff : s.allowedEffect t := by
    rcases nextMove_cases h with
      ⟨code, _, h⟩ | ⟨r, hp, h⟩ | ⟨i, _, ho, h⟩ | ⟨_, _, _, h⟩ | ⟨l, rest, _, _, _, h⟩
    · exact .inl (exec_request_h (decodeRequest_port code) h :)
    · obtain ⟨_, l, rest, _, hl⟩ := State.underway_of_controlled hs hp
      exact resume_allowed (s := { s.passTime with pending := none }) hl h
    · exact exec_allowed (s := { s.passTime with op := none }) (State.issued_of_controlled (s := s) hs ho) h
    · exact .inl (hostMove_h (State.resetAsserted_of_running hr) h)
    · exact runLine_allowed (s := s.passTime) h
  rw [hcfg]
  exact State.allowedEffect_all heff hall

end Sys2Proof.Machine

/-! PROOFS. What a write frame does to what the device holds: its own address alone, and there the byte written or, where the
device owns the register, nothing (R47, R64, log 23). -/

namespace Sys2Proof.Machine

variable {c : Config} {a : Word} {v : Byte} {dev : Device}

/-- A write that is no soft reset leaves what the device holds at every other address (R64). -/
theorem Device.take_held_other {a' : Word} (hrst : ¬(a = c.regmap.aMr ∧ flagSet v c.regmap.mrRst = true)) (ha : a' ≠ a) :
    (dev.take c a v).held c a' = dev.held c a' := by
  rw [Device.take, if_neg hrst]
  split
  · split
    · exact Device.held_store_other ha c dev _
    · rfl
  · split
    · rfl
    · exact Device.held_store_other ha c dev v

/-- A write to an address of neither interrupt register: the device keeps a register it owns and stores any other byte. -/
theorem Device.take_of_not_interrupt (hrst : ¬(a = c.regmap.aMr ∧ flagSet v c.regmap.mrRst = true))
    (hir : a ≠ c.regmap.aIr) (hsir : a ≠ s0Ir c.regmap) :
    dev.take c a v = if deviceOwned c.regmap a then dev else dev.store c a v := by
  rw [Device.take, if_neg hrst, if_neg (not_or.2 ⟨hir, hsir⟩)]

/-- Settles O14: the device takes the byte written after its own turn. -/
theorem writeFrameTouchesOneAddress : Obligations.WriteFrameTouchesOneAddress := by
  intro a d s t hrst h
  obtain rfl : (busWrite a d s).answer .done = t := by simpa [exec, execWrite8, runWrite] using h
  rw [State.answer_device, busWrite_device, Device.write]
  refine ⟨fun a' ha => Device.take_held_other hrst ha, fun hir hsir hown => ?_, fun hir hsir hown => ?_⟩
  · rw [Device.take_of_not_interrupt hrst hir hsir, if_neg (by simp [hown])]
    exact Device.held_store_self _ _ a d
  · rw [Device.take_of_not_interrupt hrst hir hsir, if_pos hown]

end Sys2Proof.Machine

/-! PROOFS. A COPY_OUT turn by turn: the cursor of byte `i` is the ring's address of it, and a turn whose bytes are there
reaches the turn after them (R97 to R101). -/

namespace Sys2Proof.Machine

/-! The ring's addresses (R97, R98, R103). -/

theorem ringOffset_le (mask p : Word) (i : Nat) : ((p &&& mask).toNat + i) % (mask.toNat + 1) ≤ mask.toNat :=
  Nat.le_of_lt_succ (Nat.mod_lt _ (Nat.succ_pos _))

section
variable {base mask : Word} (h : Config.validWindow base mask = true)
include h

theorem ringAddr_toNat (p : Word) (i : Nat) :
    (ringAddr base mask p i).toNat = base.toNat + ((p &&& mask).toNat + i) % (mask.toNat + 1) := by
  have hend := Config.validWindow_end h
  have hlt := ringOffset_le mask p i
  rw [ringAddr, BitVec.toNat_ofNat, Nat.mod_eq_of_lt (by omega)]

/-- Every byte of a transfer is inside the window. -/
theorem inWindow_ringAddr (p : Word) (i : Nat) : inWindow base mask (ringAddr base mask p i) = true := by
  have hlt := ringOffset_le mask p i
  rw [inWindow_iff h, ringAddr_toNat h]
  omega

/-- A transfer starts at its pointer's physical address. -/
theorem phys_eq_ringAddr (p : Word) : phys base mask p = ringAddr base mask p 0 := by
  have hend := Config.validWindow_end h
  have hand : (p &&& mask).toNat ≤ mask.toNat := by rw [BitVec.toNat_and]; exact Nat.and_le_right
  apply BitVec.eq_of_toNat_eq
  rw [ringAddr_toNat h, phys, BitVec.toNat_add, Nat.add_zero, Nat.mod_eq_of_lt (Nat.lt_succ_of_le hand)]
  omega

/-- The cursor after byte `i` is at byte `i + 1`: it wraps at the window's last address, where the remainder does. -/
theorem nextCursor_ringAddr (p : Word) (i : Nat) :
    nextCursor base mask (ringAddr base mask p i) = ringAddr base mask p (i + 1) := by
  have hend := Config.validWindow_end h
  have hlt := ringOffset_le mask p i
  have hi := ringAddr_toNat h p i
  have hlast : (base + mask).toNat = base.toNat + mask.toNat := by rw [BitVec.toNat_add]; omega
  have hnext := ringAddr_toNat h p (i + 1)
  rw [← Nat.add_assoc, ← Nat.mod_add_mod] at hnext
  apply BitVec.eq_of_toNat_eq
  unfold nextCursor
  split <;> rename_i hwrap <;> rw [← BitVec.toNat_inj, hi, hlast] at hwrap
  · have hrem : ((p &&& mask).toNat + i) % (mask.toNat + 1) = mask.toNat := by omega
    rw [hnext, hrem, Nat.mod_self, Nat.add_zero]
  · have hone : (1 : Word).toNat = 1 := rfl
    rw [hnext, Nat.mod_eq_of_lt (by omega), BitVec.toNat_add, hi, hone]
    omega

end

/-! The turns of a COPY_OUT (R101). -/

/-- COPY_OUT is at byte `i` of a transfer of `n` bytes from pointer `p`, with the engine undisturbed. -/
structure State.copyingOut (s : State) (p n : Word) (i : Nat) : Prop where
  undisturbed : s.undisturbed = true
  pending : s.pending = none
  tlen : s.tx.tlen = some n
  tpa : s.tx.tpa = some (ringAddr s.cfg.txBase s.cfg.txMask p i)
  ti : s.tx.ti = some (BitVec.ofNat 16 i)

variable {s : State} {p n : Word} {i : Nat}

/-- COPY_OUT from `s` on, the turn at `s` first, leads to `u`. -/
def State.copyOutLeadsTo (s u : State) : Prop := ∃ t, copyOutTurn s = .next t ∧ t.reaches u

theorem le_ofNat_iff {m : Word} (hi : i < 65536) : m ≤ BitVec.ofNat 16 i ↔ m.toNat ≤ i := by
  rw [BitVec.le_def, BitVec.toNat_ofNat, Nat.mod_eq_of_lt hi]

/-- The turn of a byte that is there sends it and leaves the rest pending. -/
theorem copyOutTurn_byte {b : Byte} (hs : s.copyingOut p n i)
    (hv : Config.validWindow s.cfg.txBase s.cfg.txMask = true) (hn : i < n.toNat) (hcap : i < s.cfg.cap.toNat)
    (hb : s.readFb i = some b) :
    copyOutTurn s =
      .next ((copyOutByte (ringAddr s.cfg.txBase s.cfg.txMask p i) (BitVec.ofNat 16 i) b s).pend .copyOut) := by
  have hi : i < 65536 := by omega
  simp only [copyOutTurn, hs.tlen, hs.tpa, hs.ti, withWritten_some, le_ofNat_iff hi, if_neg (not_le.2 hn),
    if_neg (not_le.2 hcap), BitVec.toNat_ofNat, Nat.mod_eq_of_lt hi, hb, inWindow_ringAddr hv, Bool.not_true,
    Bool.false_eq_true, if_false]

/-- The turn of FB[CAP] raises FrameBufferBounds, that of an unwritten byte UnwrittenRead (R57, R101, R153). -/
theorem copyOutTurn_missing (hs : s.copyingOut p n i) (hn : i < n.toNat) (hcap : i ≤ s.cfg.cap.toNat)
    (hb : i = s.cfg.cap.toNat ∨ s.readFb i = none) :
    copyOutTurn s = .next (s.raise (if i = s.cfg.cap.toNat then .frameBufferBounds else .unwrittenRead)) := by
  have hi : i < 65536 := by omega
  have hend : s.cfg.cap.toNat ≤ i ↔ i = s.cfg.cap.toNat := by omega
  simp only [copyOutTurn, hs.tlen, hs.tpa, hs.ti, withWritten_some, le_ofNat_iff hi, if_neg (not_le.2 hn), hend,
    BitVec.toNat_ofNat, Nat.mod_eq_of_lt hi]
  split <;> rename_i hfull
  · rfl
  · rw [hb.resolve_left hfull, withWritten_none]

/-- The state at the turn after byte `b` at `i`: one frame sent, both cursors advanced, a pause of the host over. -/
def State.afterCopyOutByte (p : Word) (i : Nat) (b : Byte) (s : State) : State :=
  { (copyOutByte (ringAddr s.cfg.txBase s.cfg.txMask p i) (BitVec.ofNat 16 i) b s).passTime with pending := none }

theorem State.copyingOut_afterCopyOutByte (hs : s.copyingOut p n i)
    (hv : Config.validWindow s.cfg.txBase s.cfg.txMask = true) (b : Byte) :
    (s.afterCopyOutByte p i b).copyingOut p n (i + 1) where
  undisturbed := State.undisturbed_of hs.undisturbed rfl rfl (.inr rfl)
  pending := rfl
  tlen := hs.tlen
  tpa := congrArg some (nextCursor_ringAddr hv p i)
  ti := congrArg some (BitVec.ofNat_add i 1).symm

/-- From a byte that is there COPY_OUT leads to where the turn after it leads. -/
theorem State.copyOutLeadsTo_of_byte {b : Byte} {u : State} (hs : s.copyingOut p n i)
    (hv : Config.validWindow s.cfg.txBase s.cfg.txMask = true) (hn : i < n.toNat) (hcap : i < s.cfg.cap.toNat)
    (hb : s.readFb i = some b) (hu : (s.afterCopyOutByte p i b).copyOutLeadsTo u) : s.copyOutLeadsTo u := by
  obtain ⟨t, ht, htu⟩ := hu
  refine ⟨_, copyOutTurn_byte hs hv hn hcap hb, State.reaches_step ?_ htu⟩
  refine (step_pending (r := .copyOut) ?_ rfl).trans ht
  exact State.undisturbed_of hs.undisturbed rfl rfl (.inl rfl)

/-- At `s'` COPY_OUT has sent `bs` since it was at byte `i` at `s`: the frames, and the host's time that passed. -/
structure State.sentOut (s s' : State) (p n : Word) (i : Nat) (bs : List Byte) : Prop where
  copyingOut : s'.copyingOut p n (i + bs.length)
  h : s'.h = s.h ++ ringWrites s.cfg.txBase s.cfg.txMask p i bs
  host : s'.host <:+ s.host
  state : s' = { s with
    bus := s'.bus, h := s'.h, host := s'.host, tx := { s.tx with tpa := s'.tx.tpa, ti := s'.tx.ti }
    device := s.device.afterFrames s.cfg (ringWrites s.cfg.txBase s.cfg.txMask p i bs) }

/-- COPY_OUT sends bytes that are there and leads to where the turn after them leads, by induction on the bytes. -/
theorem State.sentOut_of_readFb (bs : List Byte) : ∀ {s : State} {i : Nat}, s.copyingOut p n i →
    Config.validWindow s.cfg.txBase s.cfg.txMask = true → i + bs.length ≤ n.toNat → i + bs.length ≤ s.cfg.cap.toNat →
    (∀ j, j < bs.length → s.readFb (i + j) = bs[j]?) →
    ∃ s', s.sentOut s' p n i bs ∧ ∀ u, s'.copyOutLeadsTo u → s.copyOutLeadsTo u := by
  induction bs with
  | nil =>
    intro s i hs _ _ _ _
    exact ⟨s, ⟨hs, (List.append_nil _).symm, List.suffix_refl _, rfl⟩, fun _ hu => hu⟩
  | cons b bs ih =>
    intro s i hs hv hn hcap hfb
    rw [List.length_cons] at hn hcap
    obtain ⟨s', hsent, hlead⟩ := ih (State.copyingOut_afterCopyOutByte hs hv b) hv (by omega) (by omega : _ ≤ s.cfg.cap.toNat)
      fun j hj => by
        rw [Nat.add_assoc, Nat.add_comm 1 j]
        exact hfb (j + 1) (Nat.succ_lt_succ hj)
    refine ⟨s', ⟨?_, ?_, ?_, ?_⟩, fun u hu => ?_⟩
    · rw [List.length_cons, Nat.add_comm bs.length, ← Nat.add_assoc]
      exact hsent.copyingOut
    · rw [hsent.h]
      exact List.append_assoc _ _ _
    · exact hsent.host.trans (afterPause_suffix _)
    · rw [hsent.state]
      simp [State.afterCopyOutByte, copyOutByte, ringWrites, Device.afterFrames, hs.pending]
    · exact State.copyOutLeadsTo_of_byte hs hv (by omega) (by omega) (hfb 0 (Nat.succ_pos _)) (hlead u hu)

/-- COPY_OUT runs the turn of byte 0 (R97, R101). -/
theorem exec_copyOut_eq (hv : Config.validWindow s.cfg.txBase s.cfg.txMask = true) (hp : s.tx.wr0 = some p)
    (hn : s.tx.tlen = some n) :
    exec .copyOut s = copyOutTurn (s.setTxCursor (ringAddr s.cfg.txBase s.cfg.txMask p 0) 0) := by
  simp only [exec, execCopyOut, hp, hn, withWritten_some, phys_eq_ringAddr hv]

theorem State.copyingOut_start (hfree : s.free = true) (hn : s.tx.tlen = some n) (p : Word) :
    (s.setTxCursor (ringAddr s.cfg.txBase s.cfg.txMask p 0) 0).copyingOut p n 0 := by
  simp only [State.free, Bool.and_eq_true, Option.isNone_iff_eq_none] at hfree
  obtain ⟨⟨hu, _⟩, hpend⟩ := hfree
  exact ⟨hu, hpend, hn, rfl, rfl⟩

/-- Settles O21: COPY_OUT reaches the turn of the missing byte, which faults before its frame. -/
theorem copyOutStopsAtTheMissingByte : Obligations.CopyOutStopsAtTheMissingByte := by
  intro s p n bs hfree hvalid hp hn hlen hcap hfb hmissing
  have hv := (Config.validWindow_of_valid hvalid).1
  obtain ⟨s', hsent, hlead⟩ := State.sentOut_of_readFb bs (State.copyingOut_start hfree hn p) hv (by omega)
    (by rwa [Nat.zero_add]) fun j hj => by rw [Nat.zero_add]; exact hfb j hj
  have hcfg : s'.cfg = s.cfg := (congrArg State.cfg hsent.state :)
  have hfb' : s'.fb = s.fb := (congrArg State.fb hsent.state :)
  have hcopying := hsent.copyingOut
  rw [Nat.zero_add] at hcopying
  have hstop := copyOutTurn_missing hcopying hlen (by rwa [hcfg]) (by rwa [hcfg, State.readFb, hfb'])
  obtain ⟨t, ht, htu⟩ := hlead _ ⟨_, hstop, State.reaches_refl _⟩
  refine ⟨t, _, (exec_copyOut_eq hv hp hn).trans ht, htu, hsent.h, ?_, hfb', ?_, ?_, ?_⟩
  · rw [State.raise_fault, hcfg]
  · exact (congrArg State.len hsent.state :)
  · exact (congrArg State.act hsent.state :)
  · exact (congrArg State.pc hsent.state :)

end Sys2Proof.Machine

/-! PROOFS. Frame Dispatch's moves inside the callout (R145, log 9, log 22). -/

namespace Sys2Proof.Machine

variable {s : State}

/-- A machine at rest in the callout lets Frame Dispatch move (R145). -/
theorem step_dispatchMove (h : s.restsAt .dispatch = true) : step s = dispatchMove s.passTime := by
  obtain ⟨hu, ⟨rest, hpc⟩, hop, hp, _⟩ := State.restsAt_iff.1 h
  exact step_line hu hp hop hpc

/-- A request of Frame Dispatch is issued (R79, R145). -/
theorem step_dispatchRequest {code : Byte} {ms : List DispatchMove} (h : s.restsAt .dispatch = true)
    (hd : s.dispatch = .request code :: ms) : step s = .next (present code { s.passTime with dispatch := ms }) := by
  rw [step_dispatchMove h, dispatchMove, State.passTime_dispatch, hd]

/-- The step after Frame Dispatch's request runs its meaning. -/
theorem State.reaches_dispatchRequest {code : Byte} {ms : List DispatchMove} {t : State} (h : s.restsAt .dispatch = true)
    (hd : s.dispatch = .request code :: ms)
    (ht : exec (decodeRequest code) { s.passTime.passTime with dispatch := ms } = .next t) : s.reaches t := by
  obtain ⟨hu, _, hop, hp, _⟩ := State.restsAt_iff.1 h
  refine State.reaches_step (step_dispatchRequest h hd) (State.reaches_step ?_ (State.reaches_refl t))
  refine (step_op (i := decodeRequest code) ?_ ?_ rfl).trans ?_
  · exact State.undisturbed_of hu rfl rfl (.inr rfl)
  · exact hp
  · rw [← ht, ← hop]
    rfl

/-- Settles O41: one case for each move of Frame Dispatch. -/
theorem frameDispatchLiberties : Obligations.FrameDispatchLiberties := by
  intro s ms h ha hm
  have hstep := step_dispatchMove h
  refine ⟨fun i b hd hi => ?_, fun i b hd hi => ?_, fun v hd => ?_, fun n hd hn => ?_, fun code hc hd => ?_⟩
  · rw [hstep, dispatchMove, State.passTime_dispatch, hd]
    refine ⟨State.writeFb i b { s.passTime with dispatch := ms }, if_pos hi, State.readFb_writeFb_self i _, fun j hj => ?_,
      rfl, rfl, rfl⟩
    exact State.readFb_writeFb_other hj _
  · rw [hstep, dispatchMove, State.passTime_dispatch, hd]
    exact if_neg (BitVec.not_lt.2 hi)
  · rw [hstep, dispatchMove, State.passTime_dispatch, hd]
    exact ⟨_, rfl, rfl, rfl, rfl, rfl⟩
  · have hadmit := (requestsAreAdmitted { s.passTime.passTime with dispatch := ms }).2.2 n (.inr ha) hm hn
    refine ⟨_, State.reaches_dispatchRequest h hd hadmit, ?_, rfl, rfl, rfl, rfl⟩
    exact if_neg (by simp [ha])
  · have hbusy : s.act ≠ .idle := by simp [ha]
    have hrefuse := exec_reentered (s := { s.passTime.passTime with dispatch := ms }) hbusy (hc.imp_right .inl)
    exact ⟨_, State.reaches_dispatchRequest h hd hrefuse, rfl, rfl⟩

end Sys2Proof.Machine

/-! PROOFS. The decoder on what the encoder writes, and the meanings of the operations it names (R71 to R80, R86, R87, log 14). -/

namespace Sys2Proof.Machine

/-! One frame and a pair of frames (R71 to R77). -/

/-- Byte 0 tells a frame's form, and the rest of it its name (R72, R73, R86). -/
theorem decode_frameBytes (c : Config) (op : Byte) (a : Word) (d : Byte) :
    decode c .bus (frameBytes op a d) =
      if op = c.opRead then .ok (nameRead c.regmap a d)
      else if op = c.opWrite then .ok (nameWrite c.regmap a d)
      else .error .invalidFrame := by
  simp only [frameBytes, decode, decodeFrame, concatBytes_hi_lo]

theorem decode_readFrame (c : Config) (a : Word) : decode c .bus (readFrame c a) = .ok (nameRead c.regmap a 0x00) :=
  (decode_frameBytes c _ a _).trans (if_pos rfl)

theorem decode_writeFrame {c : Config} (hop : c.opRead ≠ c.opWrite) (a : Word) (d : Byte) :
    decode c .bus (writeFrame c a d) = .ok (nameWrite c.regmap a d) :=
  (decode_frameBytes c _ a d).trans ((if_neg hop.symm).trans (if_pos rfl))

theorem decode_encode_read16 (c : Config) (a : Word) : decode c .bus (encode c (.read16 a)) = .ok (.read16 a) := by
  simp [encode, readFrame, frameBytes, decode, decodePair]

theorem decode_encode_write16 {c : Config} (hop : c.opRead ≠ c.opWrite) (a v : Word) :
    decode c .bus (encode c (.write16 a v)) = .ok (.write16 a v) := by
  simp [encode, writeFrame, frameBytes, decode, decodePair, hop.symm]

/-! The names (R78). -/

/-- A READ8 that is the table's name for its frame is the name the decoder gives it. -/
theorem nameRead_of_wf {rm : RegMap} {a : Word} (h : (Instr.read8 a).wf rm = true) : nameRead rm a 0x00 = .read8 a := by
  obtain ⟨hsr, hir, hsir⟩ : a ≠ s0Sr rm ∧ a ≠ rm.aIr ∧ a ≠ s0Ir rm := by simpa [Instr.wf, namedReads] using h
  simp [nameRead, hsr, hir, hsir]

/-- A WRITE8 that is the table's name for its frame is the name the decoder gives it. -/
theorem nameWrite_of_wf {rm : RegMap} {a : Word} {d : Byte} (h : (Instr.write8 a d).wf rm = true) :
    nameWrite rm a d = .write8 a d := by
  obtain ⟨hnamed, hir⟩ : (a, d) ∉ namedWrites rm ∧ a ≠ rm.aIr := by simpa [Instr.wf] using h
  simp only [namedWrites, List.mem_cons, Prod.mk.injEq, List.not_mem_nil, or_false, not_or] at hnamed
  simp only [nameWrite, hnamed, hir, if_false]

/-- The write-back's address is no other named write's under the default REGMAP (R14, R78). -/
theorem nameWrite_ackIr (v : Byte) : nameWrite RegMap.default RegMap.default.aIr v = .ackIr v := by
  have haddr : RegMap.default.aIr ∉ (namedWrites RegMap.default).map Prod.fst := by decide
  simp only [namedWrites, List.map_cons, List.mem_cons, not_or] at haddr
  simp only [nameWrite, haddr, false_and, if_false, if_true]

/-- A code that is none of the three requests is reserved (R79, R87). -/
theorem decodeRequest_reserved {code : Byte} (h1 : code ≠ 0x01) (h2 : code ≠ 0x02) (h3 : code ≠ 0x03) :
    decodeRequest code = .reservedRequest code := by
  simp only [decodeRequest, h1, h2, h3, if_false]

/-- The rows of the table without an operand: one word each. -/
def fixedWordRows : List Instr :=
  [.mrReset, .imrClear, .setMacraw, .cmdOpen, .cmdClose, .cmdRecv, .cmdSend, .ackSendOk, .ackRecv, .readSr, .readIr,
   .readS0Ir, .init, .pollOnce, .transmit, .receiveDrain, .copyIn, .copyOut, .dispatch]

theorem decode_encode_fixedWordRows :
    ∀ i ∈ fixedWordRows, decode Config.default i.port (encode Config.default i) = .ok i := by decide

/-- Settles O1: the operands one by one, then the rows of one word. -/
theorem decodeEncodeRoundTrip : Obligations.DecodeEncodeRoundTrip := by
  intro i hwf
  have hop : Config.default.opRead ≠ Config.default.opWrite := by decide
  cases i
  case read8 a => exact (decode_readFrame _ a).trans (congrArg _ (nameRead_of_wf hwf))
  case write8 a d => exact (decode_writeFrame hop a d).trans (congrArg _ (nameWrite_of_wf hwf))
  case read16 a => exact decode_encode_read16 _ a
  case write16 a v => exact decode_encode_write16 hop a v
  case ackIr v => exact (decode_writeFrame hop _ v).trans (congrArg _ (nameWrite_ackIr v))
  case reservedRequest code =>
    obtain ⟨⟨h1, h2⟩, h3⟩ : (code ≠ 0x01 ∧ code ≠ 0x02) ∧ code ≠ 0x03 := by simpa [Instr.wf] using hwf
    exact congrArg _ (decodeRequest_reserved h1 h2 h3)
  all_goals exact decode_encode_fixedWordRows _ (by decide)

/-- Settles O3: the words by evaluation, `Invalid` for every frame. -/
theorem tableWordsDecode : Obligations.TableWordsDecode := by
  unfold Obligations.TableWordsDecode
  iterate 27 refine ⟨by decide, ?_⟩
  intro c op d a hr hw
  exact (decode_frameBytes c op a d).trans ((if_neg hr).trans (if_neg hw))

/-! What a name means (R78, log 14). -/

variable {s : State}

/-- A bus operation is one read frame, one write frame or a pair, in its encoding and in its meaning alike. -/
theorem Instr.bus_cases (s : State) {i : Instr} (hi : i.port = .bus) :
    (∃ a, encode s.cfg i = readFrame s.cfg a ∧ exec i s = runRead a s) ∨
    (∃ a d, encode s.cfg i = writeFrame s.cfg a d ∧ exec i s = runWrite a d s) ∨
    (∃ a, i = .read16 a) ∨ ∃ a v, i = .write16 a v := by
  cases i <;> try cases hi
  case read16 a => exact .inr (.inr (.inl ⟨a, rfl⟩))
  case write16 a v => exact .inr (.inr (.inr ⟨a, v, rfl⟩))
  case read8 => exact .inl ⟨_, rfl, rfl⟩
  case readSr => exact .inl ⟨_, rfl, rfl⟩
  case readIr => exact .inl ⟨_, rfl, rfl⟩
  case readS0Ir => exact .inl ⟨_, rfl, rfl⟩
  all_goals exact .inr (.inl ⟨_, _, rfl, rfl⟩)

/-- One name tried for a write frame: where it fits its meaning is the frame's, and elsewhere the next one is tried. -/
theorem exec_ite_write {i j : Instr} {a b : Word} {d e : Byte} (hi : exec i s = runWrite b e s)
    (hj : exec j s = runWrite a d s) : exec (if a = b ∧ d = e then i else j) s = runWrite a d s := by
  split
  · rename_i h
    rw [h.1, h.2, hi]
  · exact hj

/-- Whatever name a write frame gets, it does the WRITE8. -/
theorem exec_nameWrite (a : Word) (d : Byte) (s : State) : exec (nameWrite s.cfg.regmap a d) s = runWrite a d s := by
  unfold nameWrite
  iterate 9 refine exec_ite_write rfl ?_
  split
  · rename_i h
    rw [h]
    rfl
  · rfl

/-- Whatever name a read frame gets, it does the READ8. -/
theorem exec_nameRead (a : Word) (d : Byte) (s : State) : exec (nameRead s.cfg.regmap a d) s = runRead a s := by
  unfold nameRead
  split_ifs with hd hsr hir hsir
  · rfl
  · rw [hsr]
    rfl
  · rw [hir]
    rfl
  · rw [hsir]
    rfl
  · rfl

/-- Settles O2: the name decoded, and its meaning. -/
theorem decodedFrameMeansTheSame : Obligations.DecodedFrameMeansTheSame := by
  intro s i hop hi
  rcases Instr.bus_cases s hi with ⟨a, henc, hexec⟩ | ⟨a, d, henc, hexec⟩ | ⟨a, rfl⟩ | ⟨a, v, rfl⟩
  · rw [henc, hexec]
    exact ⟨_, decode_readFrame _ a, exec_nameRead a _ s⟩
  · rw [henc, hexec]
    exact ⟨_, decode_writeFrame hop a d, exec_nameWrite a d s⟩
  · exact ⟨_, decode_encode_read16 _ a, rfl⟩
  · exact ⟨_, decode_encode_write16 hop a v, rfl⟩

/-- A WRITE8 answers that it is done, with one event, and changes the bus port and the device alone (R93). -/
theorem runWrite_effect (a : Word) (d : Byte) (s : State) :
    ∃ t, runWrite a d s = .next t ∧ t.opResult = .done ∧ t.h = s.h ++ [.w8 a d] ∧
      t.device = s.device.write s.cfg a d ∧ onlyBus s t := ⟨_, rfl, rfl, rfl, rfl, rfl⟩

/-- The named writes without an operand, each with the address and the value REGMAP gives it (R78). -/
def fixedWrites (rm : RegMap) : List (Instr × Word × Byte) :=
  [(.mrReset, rm.aMr, rm.mrRst), (.imrClear, rm.aImr, 0x00), (.setMacraw, s0Mr rm, rm.smrMacraw),
   (.cmdOpen, s0Cr rm, rm.cmdOpen), (.cmdClose, s0Cr rm, rm.cmdClose), (.cmdRecv, s0Cr rm, rm.cmdRecv),
   (.cmdSend, s0Cr rm, rm.cmdSend), (.ackSendOk, s0Ir rm, rm.sirSendOk), (.ackRecv, s0Ir rm, rm.sirRecv)]

theorem exec_of_fixedWrites {x : Instr × Word × Byte} (hx : x ∈ fixedWrites s.cfg.regmap) :
    exec x.1 s = runWrite x.2.1 x.2.2 s := by
  simp only [fixedWrites, List.mem_cons, List.not_mem_nil, or_false] at hx
  rcases hx with rfl | rfl | rfl | rfl | rfl | rfl | rfl | rfl | rfl <;> rfl

theorem exec_ackIr (v : Byte) (s : State) : exec (.ackIr v) s = runWrite s.cfg.regmap.aIr v s := rfl

/-- Settles O8: each name means its WRITE8. -/
theorem namedWritesIssueTheirFrame : Obligations.NamedWritesIssueTheirFrame := by
  intro v s x hx
  have hexec : exec x.1 s = runWrite x.2.1 x.2.2 s := by
    replace hx : x ∈ fixedWrites s.cfg.regmap ++ [(.ackIr v, s.cfg.regmap.aIr, v)] := hx
    rcases List.mem_append.1 hx with hx | hx
    · exact exec_of_fixedWrites hx
    · obtain rfl := List.mem_singleton.1 hx
      exact exec_ackIr v s
  rw [hexec]
  exact runWrite_effect _ _ s

/-! The frame word (R74). -/

theorem frameWord_toNat (op : Byte) (a : Word) (d : Byte) :
    (frameWord op a d).toNat = op.toNat * 2 ^ 24 + a.toNat * 2 ^ 8 + d.toNat := by
  have happend {n : Nat} (x : BitVec n) (b : Byte) : (x ++ b).toNat = x.toNat * 2 ^ 8 + b.toNat := by
    rw [BitVec.toNat_append, ← Nat.shiftLeft_add_eq_or_of_lt b.isLt, Nat.shiftLeft_eq]
  have ha : a.toNat = (hiByte a).toNat * 2 ^ 8 + (loByte a).toNat := by
    conv_lhs => rw [← concatBytes_hi_lo a, concatBytes]
    exact happend _ _
  rw [frameWord, happend, happend, happend, ha]
  ring

/-- Settles O10: the WRITE8 of each name, at the default REGMAP's address and value. -/
theorem namedWritesAreTheirFrameWords : Obligations.NamedWritesAreTheirFrameWords := by
  intro s hcfg
  refine ⟨forall₂_imp (p := fun x _ => (x.1, x.2.1, x.2.2.1) ∈ fixedWrites RegMap.default ∧
    frameWord Config.default.opWrite x.2.1 x.2.2.1 = x.2.2.2) (fun x _ h => ?_) (by decide), fun v => ⟨?_, ?_⟩⟩
  · obtain ⟨hx, hword⟩ := h
    rw [hcfg]
    exact ⟨exec_of_fixedWrites (x := (x.1, x.2.1, x.2.2.1)) (by rwa [hcfg]), hword⟩
  · rw [exec_ackIr, hcfg]
    rfl
  · rw [frameWord_toNat, hcfg]
    rfl

/-! Refusals (R154). -/

/-- Settles O23: each refusal under its condition. -/
theorem inadmissibleRequestsAreRefused : Obligations.InadmissibleRequestsAreRefused := by
  intro s
  refine ⟨fun ha => ⟨?_, ?_⟩, fun ha hd => ?_, fun ha hm => ?_, fun ha hm => ?_, fun ha hm => ?_, fun code => rfl,
    fun code => decodeRequest_reserved⟩
  · exact exec_reentered (code := 0x01) ha (.inl rfl)
  · exact exec_reentered (code := 0x02) ha (.inr (.inl rfl))
  · exact exec_reentered (code := 0x03) ha (.inr (.inr ⟨rfl, hd⟩))
  · exact (if_neg (not_not.2 ha)).trans (if_pos hm)
  · exact (if_neg (not_not.2 ha)).trans (if_pos hm)
  · exact (if_neg (not_not.2 ha)).trans (if_pos hm)

end Sys2Proof.Machine

/-! PROOFS. The register transport: one bus frame for an 8-bit access, a frame in each of two steps for a 16-bit one (R92 to
R95, R15, log 12). -/

namespace Sys2Proof.Machine

variable {s : State}

/-! One frame (R92, R93). -/

theorem busRead_frame (a : Word) (s : State) :
    (busRead a s).2.bus = ⟨false, s.bus.wire ++ frameActs (readFrame s.cfg a)⟩ := Bus.frame_eq _ _ _ _

theorem busWrite_frame (a : Word) (d : Byte) (s : State) :
    (busWrite a d s).bus = ⟨false, s.bus.wire ++ frameActs (writeFrame s.cfg a d)⟩ := Bus.frame_eq _ _ _ _

/-- A READ8 answers the device's byte, with one event, and changes the bus port and the device alone (R92). -/
theorem runRead_effect (a : Word) (s : State) :
    ∃ t, runRead a s = .next t ∧ t.opResult = .data (zeroExtend (s.device.read s.cfg a).1) ∧
      t.h = s.h ++ [.r8 a (s.device.read s.cfg a).1] ∧ t.device = (s.device.read s.cfg a).2 ∧ onlyBus s t :=
  ⟨_, rfl, rfl, rfl, rfl, rfl⟩

/-- Settles O4: the effect of the one read frame. -/
theorem read8IssuesOneReadFrame : Obligations.Read8IssuesOneReadFrame := by
  intro a s
  have hbus := busRead_frame a s
  exact ⟨_, _, rfl, rfl, rfl, rfl, congrArg Bus.wire hbus, congrArg Bus.held hbus, rfl, rfl⟩

/-- Settles O5: the effect of the one write frame. -/
theorem write8IssuesOneWriteFrame : Obligations.Write8IssuesOneWriteFrame := by
  intro a d s
  have hbus := busWrite_frame a d s
  exact ⟨_, rfl, rfl, rfl, congrArg Bus.wire hbus, congrArg Bus.held hbus, rfl, rfl⟩

/-- Each named read means the READ8 of the address REGMAP gives it (R109, R116, R117). -/
theorem exec_of_namedRead {x : Instr × Word}
    (hx : x ∈ ([(.readSr, s0Sr s.cfg.regmap), (.readIr, s.cfg.regmap.aIr), (.readS0Ir, s0Ir s.cfg.regmap)] :
      List (Instr × Word))) : exec x.1 s = runRead x.2 s := by
  simp only [List.mem_cons, List.not_mem_nil, or_false] at hx
  rcases hx with rfl | rfl | rfl <;> rfl

/-- Settles O9: each name means its READ8. -/
theorem namedReadsIssueTheirFrame : Obligations.NamedReadsIssueTheirFrame := by
  intro s x hx
  rw [exec_of_namedRead hx]
  exact runRead_effect x.2 s

/-! The second frame of a 16-bit access, in the next step (R94, R95). -/

theorem State.free_iff : s.free = true ↔ s.undisturbed = true ∧ s.op = none ∧ s.pending = none := by
  simp only [State.free, Bool.and_eq_true, Option.isNone_iff_eq_none, and_assoc]

/-- The next step of a free engine whose operation has stopped between two frames takes up the rest, and leaves nothing
pending (R15, log 12). -/
theorem step_pend_of_free (h : s.free = true) (r : Pending) : step (s.pend r) = resume r s.passTime := by
  obtain ⟨hu, -, hp⟩ := State.free_iff.1 h
  calc step (s.pend r)
    _ = resume r { s.passTime with pending := none } :=
      step_pending (s := s.pend r) (State.undisturbed_of hu rfl rfl (.inl rfl)) rfl
    _ = resume r s.passTime := by rw [← hp]; rfl

/-- Settles O6: the read frame of the high byte, and in the next step that of the low byte. -/
theorem read16IsTwoReadFrames : Obligations.Read16IsTwoReadFrames := by
  intro a s
  refine ⟨_, _, rfl, rfl, rfl, busRead_frame a s, rfl, fun hfree => ?_⟩
  have hstep := step_pend_of_free (s := (busRead a s).2) hfree (.read16Low (a + 1) (busRead a s).1)
  exact ⟨_, _, _, hstep, rfl, concatBytes_toNat _ _, rfl, List.append_assoc _ _ _,
    busRead_frame (a + 1) (busRead a s).2.passTime, rfl, rfl⟩

/-- Settles O7: the write frame of the high byte, and in the next step that of the low byte. -/
theorem write16IsTwoWriteFrames : Obligations.Write16IsTwoWriteFrames := by
  intro a v s
  have hvalue : v.toNat = (hiByte v).toNat * 256 + (loByte v).toNat := by
    rw [← concatBytes_toNat, concatBytes_hi_lo]
  refine ⟨hiByte v, loByte v, _, rfl, hvalue, rfl, busWrite_frame a (hiByte v) s, rfl, fun hfree => ?_⟩
  have hstep := step_pend_of_free (s := busWrite a (hiByte v) s) hfree (.write16Low (a + 1) (loByte v))
  exact ⟨_, hstep, rfl, List.append_assoc _ _ _,
    busWrite_frame (a + 1) (loByte v) (busWrite a (hiByte v) s).passTime, rfl, rfl⟩

end Sys2Proof.Machine

/-! PROOFS. The ring's cursors and the two copies (R97 to R104): a pointer's low bits are its remainder by the window's size,
stepping a cursor goes through the ring's addresses, and each copy ends with its frames in ring order. -/

namespace Sys2Proof.Machine

/-! The ring's arithmetic (R9, R97 to R99, R104). -/

/-- The size of a valid window is a power of two, at most 2^15 (R9). -/
theorem Config.validWindow_size {base mask : Word} (h : Config.validWindow base mask = true) :
    ∃ k < 16, mask.toNat + 1 = 2 ^ k := by
  simp only [Config.validWindow, Bool.and_eq_true, List.any_eq_true, List.mem_range, beq_iff_eq] at h
  exact h.1

section
variable {base mask : Word} (h : Config.validWindow base mask = true)
include h

/-- The low bits of a pointer are its remainder by the window's size, a power of two (R97). -/
theorem and_mask_toNat (p : Word) : (p &&& mask).toNat = p.toNat % (mask.toNat + 1) := by
  obtain ⟨k, -, hsize⟩ := Config.validWindow_size h
  have hmask : mask.toNat = 2 ^ k - 1 := by omega
  rw [BitVec.toNat_and, hsize, hmask, Nat.and_two_pow_sub_one_eq_mod]

theorem phys_toNat (p : Word) : (phys base mask p).toNat = base.toNat + p.toNat % (mask.toNat + 1) := by
  rw [phys_eq_ringAddr h, ringAddr_toNat h, and_mask_toNat h, Nat.add_zero, Nat.mod_mod]

/-- Stepping the first cursor of a transfer `i` times goes to its byte `i`, by induction on `i`. -/
theorem iterate_nextCursor_phys (p : Word) (i : Nat) :
    (nextCursor base mask)^[i] (phys base mask p) = ringAddr base mask p i := by
  induction i with
  | zero => exact phys_eq_ringAddr h p
  | succ i ih => rw [Function.iterate_succ_apply', ih, nextCursor_ringAddr h]

/-- A cursor in the window is `c - BASE` above BASE, and that offset has no upper bits. -/
theorem phys_sub_base {c : Word} (hc : inWindow base mask c = true) : phys base mask (c - base) = c := by
  rw [inWindow_iff h] at hc
  apply BitVec.eq_of_toNat_eq
  rw [phys_toNat h, BitVec.toNat_sub_of_le hc.1, Nat.mod_eq_of_lt (by omega)]
  omega

/-- The window's size divides 2^16, so the pointer's own wrap there does not show in the ring's address (R104). -/
theorem phys_add_ofNat (p : Word) (k : Nat) :
    phys base mask (p + BitVec.ofNat 16 k) = ringAddr base mask p k := by
  obtain ⟨j, hj, hsize⟩ := Config.validWindow_size h
  have hdvd : mask.toNat + 1 ∣ 2 ^ 16 := hsize ▸ Nat.pow_dvd_pow 2 hj.le
  apply BitVec.eq_of_toNat_eq
  rw [phys_toNat h, ringAddr_toNat h, and_mask_toNat h, BitVec.toNat_add, BitVec.toNat_ofNat, Nat.add_mod_mod,
    Nat.mod_mod_of_dvd _ hdvd, Nat.mod_add_mod]

end

/-- Settles O16: the low bits are a remainder, and neither PHYS nor NEXT leaves the window. -/
theorem cursorsStayInTheWindow : Obligations.CursorsStayInTheWindow := by
  intro base mask p q a h
  exact ⟨phys_toNat h p, congrArg (base + ·), inWindow_phys h p, inWindow_nextCursor h⟩

/-- Settles O17: a cursor in the window is the first one of the transfer from `c - BASE`. -/
theorem visitSequence : Obligations.VisitSequence := by
  intro base mask c i h hc
  have hle := ((inWindow_iff h).1 hc).1
  calc ((nextCursor base mask)^[i] c).toNat
    _ = (ringAddr base mask (c - base) i).toNat := by rw [← iterate_nextCursor_phys h, phys_sub_base h hc]
    _ = base.toNat + (c.toNat - base.toNat + i) % (mask.toNat + 1) := by
      rw [ringAddr_toNat h, and_mask_toNat h, Nat.mod_add_mod, BitVec.toNat_sub_of_le hle]

/-- Settles O18: both sequences are the ring's addresses. -/
theorem logicalWrapIsIndependent : Obligations.LogicalWrapIsIndependent := by
  intro base mask p k h
  exact ⟨phys_add_ofNat h p k, (phys_add_ofNat h p k).trans (iterate_nextCursor_phys h p k).symm⟩

variable {s : State} {p n : Word} {i k : Nat}

/-! The end of a COPY_OUT (R101). -/

/-- The turn that finds the count reached sends nothing and answers done. -/
theorem copyOutTurn_end (hs : s.copyingOut p n n.toNat) : copyOutTurn s = .next (s.answer .done) := by
  simp only [copyOutTurn, hs.tlen, hs.tpa, hs.ti, withWritten_some, BitVec.ofNat_toNat, BitVec.setWidth_eq, BitVec.le_refl,
    if_true]

/-- The first turn of the rest of a COPY_OUT sends the first frame of the rest, or has none to send. -/
theorem copyOutTurn_h {bs : List Byte} {t : State} (hs : s.copyingOut p n i)
    (hv : Config.validWindow s.cfg.txBase s.cfg.txMask = true) (hn : i + bs.length = n.toNat)
    (hcap : n.toNat ≤ s.cfg.cap.toNat) (hb : bs ≠ [] → s.readFb i = bs[0]?) (ht : copyOutTurn s = .next t) :
    t.h = s.h ++ (ringWrites s.cfg.txBase s.cfg.txMask p i bs).take 1 := by
  cases bs with
  | nil =>
    obtain rfl : i = n.toNat := hn
    cases (copyOutTurn_end hs).symm.trans ht
    exact (List.append_nil _).symm
  | cons b bs =>
    rw [List.length_cons] at hn
    cases (copyOutTurn_byte hs hv (by omega) (by omega) (hb (List.cons_ne_nil _ _))).symm.trans ht
    rfl

/-- Settles O20: COPY_OUT sends all its bytes and reaches the turn that ends it. -/
theorem copyOutWritesTheRing : Obligations.CopyOutWritesTheRing := by
  intro s p n bs hfree hvalid hp hn hcap hlen hfb
  have hv := (Config.validWindow_of_valid hvalid).1
  have hcap' : n.toNat ≤ s.cfg.cap.toNat := hcap
  have hstart := State.copyingOut_start hfree hn p
  obtain ⟨s', hsent, hlead⟩ := State.sentOut_of_readFb bs hstart hv (by omega) (by rw [Nat.zero_add, hlen]; exact hcap')
    fun j hj => by rw [Nat.zero_add]; exact hfb j hj
  have hcfg : s'.cfg = s.cfg := (congrArg State.cfg hsent.state :)
  have hcopying := hsent.copyingOut
  rw [Nat.zero_add, hlen] at hcopying
  obtain ⟨t, ht, htu⟩ := hlead _ ⟨_, copyOutTurn_end hcopying, State.reaches_refl _⟩
  have hfirst := copyOutTurn_h hstart hv (by omega) hcap' (fun hne => hfb 0 (List.length_pos_iff.2 hne)) ht
  refine ⟨t, _, (exec_copyOut_eq hv hp hn).trans ht, htu, hfirst, hsent.h, hsent.host, ?_⟩
  have htpa := hcopying.tpa
  have hti := hcopying.ti
  rw [hcfg] at htpa
  rw [BitVec.ofNat_toNat, BitVec.setWidth_eq] at hti
  rw [hsent.state, htpa, hti]
  rfl

/-! The turns of a COPY_IN (R100). -/

/-- COPY_IN is at byte `i` of a transfer of `n` bytes from pointer `p`, with the engine undisturbed. -/
structure State.copyingIn (s : State) (p n : Word) (i : Nat) : Prop where
  undisturbed : s.undisturbed = true
  pending : s.pending = none
  size : s.rx.size = some n
  rpa : s.rx.rpa = some (ringAddr s.cfg.rxBase s.cfg.rxMask p i)
  ri : s.rx.ri = some (BitVec.ofNat 16 i)

/-- COPY_IN from `s` on, the turn at `s` first, leads to `u`. -/
def State.copyInLeadsTo (s u : State) : Prop := ∃ t, copyInTurn s = .next t ∧ t.reaches u

/-- The turn of a byte below CAP reads it and leaves the rest pending. -/
theorem copyInTurn_byte (hs : s.copyingIn p n i) (hv : Config.validWindow s.cfg.rxBase s.cfg.rxMask = true)
    (hn : i < n.toNat) (hcap : i < s.cfg.cap.toNat) :
    copyInTurn s =
      .next ((copyInByte (ringAddr s.cfg.rxBase s.cfg.rxMask p i) (BitVec.ofNat 16 i) s).pend .copyIn) := by
  have hi : i < 65536 := by omega
  simp only [copyInTurn, hs.size, hs.rpa, hs.ri, withWritten_some, le_ofNat_iff hi, if_neg (not_le.2 hn),
    if_neg (not_le.2 hcap), inWindow_ringAddr hv, Bool.not_true, Bool.false_eq_true, if_false]

/-- The turn that finds the count reached reads nothing and answers done. -/
theorem copyInTurn_end (hs : s.copyingIn p n n.toNat) : copyInTurn s = .next (s.answer .done) := by
  simp only [copyInTurn, hs.size, hs.rpa, hs.ri, withWritten_some, BitVec.ofNat_toNat, BitVec.setWidth_eq, BitVec.le_refl,
    if_true]

/-- The state at the turn after byte `i`: one frame read into FB, both cursors advanced, a pause of the host over. -/
def State.afterCopyInByte (p : Word) (i : Nat) (s : State) : State :=
  { (copyInByte (ringAddr s.cfg.rxBase s.cfg.rxMask p i) (BitVec.ofNat 16 i) s).passTime with pending := none }

theorem State.copyingIn_afterCopyInByte (hs : s.copyingIn p n i)
    (hv : Config.validWindow s.cfg.rxBase s.cfg.rxMask = true) : (s.afterCopyInByte p i).copyingIn p n (i + 1) where
  undisturbed := State.undisturbed_of hs.undisturbed rfl rfl (.inr rfl)
  pending := rfl
  size := hs.size
  rpa := congrArg some (nextCursor_ringAddr hv p i)
  ri := congrArg some (BitVec.ofNat_add i 1).symm

/-- From a byte below CAP COPY_IN leads to where the turn after it leads. -/
theorem State.copyInLeadsTo_of_byte {u : State} (hs : s.copyingIn p n i)
    (hv : Config.validWindow s.cfg.rxBase s.cfg.rxMask = true) (hn : i < n.toNat) (hcap : i < s.cfg.cap.toNat)
    (hu : (s.afterCopyInByte p i).copyInLeadsTo u) : s.copyInLeadsTo u := by
  obtain ⟨t, ht, htu⟩ := hu
  refine ⟨_, copyInTurn_byte hs hv hn hcap, State.reaches_step ?_ htu⟩
  refine (step_pending (r := .copyIn) ?_ rfl).trans ht
  exact State.undisturbed_of hs.undisturbed rfl rfl (.inl rfl)

/-- FB after byte `i`: the device's answer at `i`, every other byte as before. -/
theorem State.readFb_afterCopyInByte_self (hi : i < 65536) (p : Word) (s : State) :
    (s.afterCopyInByte p i).readFb i =
      some (s.device.read s.cfg (ringAddr s.cfg.rxBase s.cfg.rxMask p i)).1 := by
  have h := State.readFb_writeFb_self (b := (s.device.read s.cfg (ringAddr s.cfg.rxBase s.cfg.rxMask p i)).1)
    (BitVec.ofNat 16 i) s
  rwa [BitVec.toNat_ofNat, Nat.mod_eq_of_lt hi] at h

theorem State.readFb_afterCopyInByte_other {j : Nat} (hi : i < 65536) (hj : j ≠ i) (p : Word) (s : State) :
    (s.afterCopyInByte p i).readFb j = s.readFb j :=
  State.readFb_writeFb_other (i := BitVec.ofNat 16 i) (by rwa [BitVec.toNat_ofNat, Nat.mod_eq_of_lt hi]) s

/-- The bytes the device answers from `s` on to the read frames of `k` bytes of a transfer, byte `i` the first. -/
def State.ringAnswers (s : State) (p : Word) (i k : Nat) : List Byte :=
  s.device.answers s.cfg ((List.range' i k).map (ringAddr s.cfg.rxBase s.cfg.rxMask p))

theorem Device.answers_length (c : Config) (as : List Word) (dev : Device) : (dev.answers c as).length = as.length := by
  induction as generalizing dev with
  | nil => rfl
  | cons a as ih => exact congrArg (· + 1) (ih _)

@[simp] theorem State.ringAnswers_length (s : State) (p : Word) (i k : Nat) : (s.ringAnswers p i k).length = k := by
  rw [State.ringAnswers, Device.answers_length, List.length_map, List.length_range']

/-- The answers to a whole transfer (R99, R100). -/
theorem State.ringAnswers_zero (s : State) (p : Word) (k : Nat) :
    s.ringAnswers p 0 k = s.device.answers s.cfg (ringAddrs s.cfg.rxBase s.cfg.rxMask p k) := by
  rw [State.ringAnswers, ringAddrs, List.range_eq_range']

/-- The first answer, then those from the next turn on. -/
theorem State.ringAnswers_succ (s : State) (p : Word) (i k : Nat) :
    s.ringAnswers p i (k + 1) = (s.device.read s.cfg (ringAddr s.cfg.rxBase s.cfg.rxMask p i)).1 ::
      (s.afterCopyInByte p i).ringAnswers p (i + 1) k := rfl

/-- At `s'` COPY_IN has read `bs` into FB since it was at byte `i` at `s`: the frames, and the host's time that passed. -/
structure State.readIn (s s' : State) (p n : Word) (i : Nat) (bs : List Byte) : Prop where
  copyingIn : s'.copyingIn p n (i + bs.length)
  h : s'.h = s.h ++ ringReads s.cfg.rxBase s.cfg.rxMask p i bs
  host : s'.host <:+ s.host
  holds : ∀ j, j < bs.length → s'.readFb (i + j) = bs[j]?
  others : ∀ j, j < i ∨ i + bs.length ≤ j → s'.readFb j = s.readFb j
  state : s' = { s with
    bus := s'.bus, h := s'.h, fb := s'.fb, host := s'.host, rx := { s.rx with rpa := s'.rx.rpa, ri := s'.rx.ri }
    device := s.device.afterFrames s.cfg (ringReads s.cfg.rxBase s.cfg.rxMask p i bs) }

/-- What was read before a turn's byte and what is read after it make what is read from the byte on. -/
theorem State.readIn_of_byte {s' : State} {bs : List Byte} (hs : s.copyingIn p n i) (hi : i < 65536)
    (h : (s.afterCopyInByte p i).readIn s' p n (i + 1) bs) :
    s.readIn s' p n i ((s.device.read s.cfg (ringAddr s.cfg.rxBase s.cfg.rxMask p i)).1 :: bs) where
  copyingIn := by
    rw [List.length_cons, Nat.add_comm bs.length, ← Nat.add_assoc]
    exact h.copyingIn
  h := h.h.trans (List.append_assoc _ _ _)
  host := h.host.trans (afterPause_suffix _)
  holds
    | 0, _ => (h.others i (.inl (Nat.lt_succ_self i))).trans (State.readFb_afterCopyInByte_self hi p s)
    | j + 1, hj => by
      rw [Nat.add_comm j, ← Nat.add_assoc, Nat.add_comm 1 j]
      exact h.holds j (Nat.lt_of_succ_lt_succ hj)
  others j hj := by
    rw [List.length_cons] at hj
    rw [h.others j (by omega), State.readFb_afterCopyInByte_other hi (by omega)]
  state := by
    rw [h.state]
    simp [State.afterCopyInByte, copyInByte, ringReads, Device.afterFrames, hs.pending]

/-- COPY_IN reads `k` bytes below CAP and leads to where the turn after them leads, by induction on `k`. -/
theorem State.readIn_ringAnswers (k : Nat) : ∀ {s : State} {i : Nat}, s.copyingIn p n i →
    Config.validWindow s.cfg.rxBase s.cfg.rxMask = true → i + k ≤ n.toNat → i + k ≤ s.cfg.cap.toNat →
    ∃ s', s.readIn s' p n i (s.ringAnswers p i k) ∧ ∀ u, s'.copyInLeadsTo u → s.copyInLeadsTo u := by
  induction k with
  | zero =>
    intro s i hs _ _ _
    exact ⟨s, ⟨hs, (List.append_nil _).symm, List.suffix_refl _, fun _ hj => absurd hj (Nat.not_lt_zero _),
      fun _ _ => rfl, rfl⟩, fun _ hu => hu⟩
  | succ k ih =>
    intro s i hs hv hn hcap
    obtain ⟨s', hread, hlead⟩ := ih (State.copyingIn_afterCopyInByte hs hv) hv (by omega)
      (by omega : _ ≤ s.cfg.cap.toNat)
    exact ⟨s', State.readIn_of_byte hs (by omega) hread,
      fun u hu => State.copyInLeadsTo_of_byte hs hv (by omega) (by omega) (hlead u hu)⟩

/-- The first turn of the rest of a COPY_IN reads the first frame of the rest, or has none to read. -/
theorem copyInTurn_h {t : State} (hs : s.copyingIn p n i) (hv : Config.validWindow s.cfg.rxBase s.cfg.rxMask = true)
    (hn : i + k = n.toNat) (hcap : n.toNat ≤ s.cfg.cap.toNat) (ht : copyInTurn s = .next t) :
    t.h = s.h ++ (ringReads s.cfg.rxBase s.cfg.rxMask p i (s.ringAnswers p i k)).take 1 := by
  cases k with
  | zero =>
    obtain rfl : i = n.toNat := hn
    cases (copyInTurn_end hs).symm.trans ht
    exact (List.append_nil _).symm
  | succ k =>
    cases (copyInTurn_byte hs hv (by omega) (by omega)).symm.trans ht
    rfl

/-- COPY_IN runs the turn of byte 0 (R97, R100). -/
theorem exec_copyIn_eq (hv : Config.validWindow s.cfg.rxBase s.cfg.rxMask = true) (hp : s.rx.rcur = some p)
    (hn : s.rx.size = some n) :
    exec .copyIn s = copyInTurn (s.setRxCursor (ringAddr s.cfg.rxBase s.cfg.rxMask p 0) 0) := by
  simp only [exec, execCopyIn, hp, hn, withWritten_some, phys_eq_ringAddr hv]

theorem State.copyingIn_start (hfree : s.free = true) (hn : s.rx.size = some n) (p : Word) :
    (s.setRxCursor (ringAddr s.cfg.rxBase s.cfg.rxMask p 0) 0).copyingIn p n 0 := by
  obtain ⟨hu, -, hpend⟩ := State.free_iff.1 hfree
  exact ⟨hu, hpend, hn, rfl, rfl⟩

/-- Settles O19: COPY_IN reads all its bytes and reaches the turn that ends it. -/
theorem copyInReadsTheRing : Obligations.CopyInReadsTheRing := by
  intro s p n hfree hvalid hp hn hcap
  have hv := (Config.validWindow_of_valid hvalid).2
  have hcap' : n.toNat ≤ s.cfg.cap.toNat := hcap
  have hstart := State.copyingIn_start hfree hn p
  obtain ⟨s', hread, hlead⟩ := State.readIn_ringAnswers n.toNat hstart hv (Nat.zero_add _).le
    (by rw [Nat.zero_add]; exact hcap')
  have hcfg : s'.cfg = s.cfg := (congrArg State.cfg hread.state :)
  have hcopying := hread.copyingIn
  rw [Nat.zero_add, State.ringAnswers_length] at hcopying
  obtain ⟨t, ht, htu⟩ := hlead _ ⟨_, copyInTurn_end hcopying, State.reaches_refl _⟩
  have hfirst := copyInTurn_h hstart hv (Nat.zero_add _) hcap' ht
  refine ⟨_, t, _, (exec_copyIn_eq hv hp hn).trans ht, htu, State.ringAnswers_zero s p n.toNat, hfirst, hread.h,
    fun j hj => ?_, fun j hj => hread.others j (.inr ?_), hread.host, ?_⟩
  · exact (congrArg s'.readFb (Nat.zero_add j).symm).trans (hread.holds j hj)
  · rwa [Nat.zero_add, State.ringAnswers_length]
  · have hrpa := hcopying.rpa
    have hri := hcopying.ri
    rw [hcfg] at hrpa
    rw [BitVec.ofNat_toNat, BitVec.setWidth_eq] at hri
    rw [hread.state, hrpa, hri]
    rfl

end Sys2Proof.Machine

/-! PROOFS. Runs of the sequencer's lines: a line that issues one bus frame, and the frames a run of lines leaves (R15, R23,
log 6). -/

namespace Sys2Proof.Machine

variable {s t u : State} {l l' : Label} {i : Instr} {a : Word} {d : Byte} {es es' : List Event}

/-! An engine that is free, at a label or about to run an operation. -/

theorem State.free_of_restsAt (h : s.restsAt l = true) : s.free = true := by
  obtain ⟨hu, -, hop, hp, -⟩ := State.restsAt_iff.1 h
  exact State.free_iff.2 ⟨hu, hop, hp⟩

theorem State.restsAt_goto (h : s.free = true) (l : Label) : (s.goto l).restsAt l = true := by
  obtain ⟨hu, hop, hp⟩ := State.free_iff.1 h
  exact State.restsAt_iff.2 ⟨hu, ⟨_, rfl⟩, hop, hp, rfl⟩

theorem State.restsAt_enter (h : s.free = true) (r : Act) (l : Label) : (s.enter r l).restsAt l = true := by
  obtain ⟨hu, hop, hp⟩ := State.free_iff.1 h
  exact State.restsAt_iff.2 ⟨hu, ⟨_, rfl⟩, hop, hp, rfl⟩

theorem State.free_passTime (h : s.free = true) : s.passTime.free = true := by
  obtain ⟨hu, hop, hp⟩ := State.free_iff.1 h
  exact State.free_iff.2 ⟨State.undisturbed_of hu rfl rfl (.inr rfl), hop, hp⟩

theorem State.free_of_onlyBus (h : onlyBus s t) (hs : s.free = true) : t.free = true := (congrArg State.free h).trans hs

/-- A machine at rest at a label runs the label's line next. -/
theorem step_of_restsAt (h : s.restsAt l = true) : step s = runLine l s.passTime := by
  obtain ⟨hu, ⟨rest, hpc⟩, hop, hp, -⟩ := State.restsAt_iff.1 h
  exact step_line hu hp hop hpc

/-- A free engine that issues an operation runs it in the next step. -/
theorem step_issue (h : s.free = true) (i : Instr) : step (s.issue i) = exec i s.passTime := by
  obtain ⟨hu, hop, hp⟩ := State.free_iff.1 h
  rw [step_op (s := s.issue i) (State.undisturbed_of hu rfl rfl (.inl rfl)) hp rfl, ← hop]
  rfl

/-- A machine about to run an operation is a free engine that has issued it. -/
theorem State.eq_issue_of_runsNext (h : s.runsNext i = true) : ∃ u : State, u.free = true ∧ s = u.issue i := by
  simp only [State.runsNext, Bool.and_eq_true, beq_iff_eq, Option.isNone_iff_eq_none] at h
  obtain ⟨⟨hu, hop⟩, hp⟩ := h
  refine ⟨{ s with op := none }, State.free_iff.2 ⟨State.undisturbed_of hu rfl rfl (.inl rfl), rfl, hp⟩, ?_⟩
  rw [State.issue, ← hop]

/-! A line's bus frame: the line issues its operation, the operation runs, the line goes on (log 6). -/

/-- The state in which a line goes on after the write frame it issued, its third step begun. -/
def State.afterWrite (a : Word) (d : Byte) (s : State) : State :=
  { s with
    opResult := .done
    h := s.h ++ [.w8 a d]
    bus := s.bus.frame s.cfg.opWrite a d
    device := s.device.write s.cfg a d
    host := afterPause (afterPause (afterPause s.host)) }

/-- The state in which a line goes on after the read frame it issued, its third step begun. -/
def State.afterRead (a : Word) (s : State) : State :=
  { s with
    opResult := .data (zeroExtend (s.device.read s.cfg a).1)
    h := s.h ++ [.r8 a (s.device.read s.cfg a).1]
    bus := s.bus.frame s.cfg.opRead a 0x00
    device := (s.device.read s.cfg a).2
    host := afterPause (afterPause (afterPause s.host)) }

@[simp] theorem State.afterWrite_cfg (a : Word) (d : Byte) (s : State) : (s.afterWrite a d).cfg = s.cfg := rfl

theorem State.afterWrite_eq (a : Word) (d : Byte) (s : State) :
    s.afterWrite a d = ((busWrite a d s.passTime.passTime).answer .done).passTime := by
  simp only [State.afterWrite, State.passTime, State.answer, busWrite, State.emit]

theorem State.afterRead_eq (a : Word) (s : State) : s.afterRead a =
    ((busRead a s.passTime.passTime).2.answer (.data (zeroExtend (s.device.read s.cfg a).1))).passTime := by
  simp only [State.afterRead, State.passTime, State.answer, busRead, State.emit]

theorem onlyBus_answer_busWrite (a : Word) (d : Byte) (r : OpResult) (s : State) : onlyBus s ((busWrite a d s).answer r) := rfl

theorem onlyBus_answer_busRead (a : Word) (r : OpResult) (s : State) : onlyBus s ((busRead a s).2.answer r) := rfl

theorem State.free_afterWrite (h : s.free = true) (a : Word) (d : Byte) : (s.afterWrite a d).free = true := by
  rw [State.afterWrite_eq]
  exact State.free_passTime
    (State.free_of_onlyBus (onlyBus_answer_busWrite a d _ _) (State.free_passTime (State.free_passTime h)))

theorem State.free_afterRead (h : s.free = true) (a : Word) : (s.afterRead a).free = true := by
  rw [State.afterRead_eq]
  exact State.free_passTime
    (State.free_of_onlyBus (onlyBus_answer_busRead a _ _) (State.free_passTime (State.free_passTime h)))

/-- A line that issues a bus operation leads to where it goes on once that has run. -/
theorem State.reaches_of_issue (hs : s.restsAt l = true) (hl : runLine l s.passTime = .next (s.passTime.issue i))
    (hi : exec i s.passTime.passTime = .next u) (hu : onlyBus s.passTime.passTime u)
    (ht : runLine l u.passTime = .next t) : s.reaches t := by
  have hfree := State.free_passTime (State.free_of_restsAt hs)
  obtain ⟨hund, hop, hp⟩ := State.free_iff.1 (State.free_of_onlyBus hu (State.free_passTime hfree))
  obtain ⟨-, ⟨rest, hpc⟩, -⟩ := State.restsAt_iff.1 hs
  have hgo : step u = runLine l u.passTime := step_line hund hp hop ((congrArg State.pc hu).trans hpc)
  exact State.reaches_step ((step_of_restsAt hs).trans hl) (State.reaches_step ((step_issue hfree i).trans hi)
    (State.reaches_step (hgo.trans ht) (State.reaches_refl t)))

/-- A line that waits for a write leads to where it goes on after the frame. -/
theorem State.reaches_of_await {k : State → Answer} (hs : s.restsAt l = true) (hl : ∀ u, runLine l u = await i u (k u))
    (hi : exec i s.passTime.passTime = runWrite a d s.passTime.passTime) (ht : k (s.afterWrite a d) = .next t) :
    s.reaches t := by
  obtain ⟨-, -, -, -, hres⟩ := State.restsAt_iff.1 hs
  refine State.reaches_of_issue hs ?_ hi (onlyBus_answer_busWrite a d _ _) ?_
  · simp only [hl, await, State.passTime_opResult, hres]
  · rw [← State.afterWrite_eq, hl, ← ht]
    rfl

/-- A line that waits for a read's value leads to where it goes on with the device's answer. -/
theorem State.reaches_of_awaitData {k : State → Word → Answer} (hs : s.restsAt l = true)
    (hl : ∀ u, runLine l u = awaitData i u (k u)) (hi : exec i s.passTime.passTime = runRead a s.passTime.passTime)
    (ht : k (s.afterRead a) (zeroExtend (s.device.read s.cfg a).1) = .next t) : s.reaches t := by
  obtain ⟨-, -, -, -, hres⟩ := State.restsAt_iff.1 hs
  refine State.reaches_of_issue hs ?_ hi (onlyBus_answer_busRead a _ _) ?_
  · simp only [hl, awaitData, State.passTime_opResult, hres]
  · rw [busRead_fst, State.passTime_device, State.passTime_device, State.passTime_cfg, State.passTime_cfg,
      ← State.afterRead_eq, hl, ← ht]
    rfl

/-! Runs of lines. -/

/-- From `s` the lines of the request in progress lead to `t`, at rest at `l`: they issue the frames `es`, and the request and
the levels below it stay. -/
structure State.linesLeadTo (s : State) (es : List Event) (l : Label) (t : State) : Prop where
  reaches : s.reaches t
  restsAt : t.restsAt l = true
  below : t.pc.tail = s.pc.tail
  act : t.act = s.act
  cfg : t.cfg = s.cfg
  h : t.h = s.h ++ es
  device : t.device = s.device.afterFrames s.cfg es

theorem Device.afterFrames_append (c : Config) (es es' : List Event) (dev : Device) :
    dev.afterFrames c (es ++ es') = (dev.afterFrames c es).afterFrames c es' := by
  induction es generalizing dev with
  | nil => rfl
  | cons e es ih => cases e <;> exact ih _

theorem State.linesLeadTo.trans (h : s.linesLeadTo es l t) (h' : t.linesLeadTo es' l' u) :
    s.linesLeadTo (es ++ es') l' u where
  reaches := State.reaches_trans h.reaches h'.reaches
  restsAt := h'.restsAt
  below := h'.below.trans h.below
  act := h'.act.trans h.act
  cfg := h'.cfg.trans h.cfg
  h := by rw [h'.h, h.h, List.append_assoc]
  device := by rw [h'.device, h.device, h.cfg, Device.afterFrames_append]

/-- A step that issues no frame and goes to another line. -/
theorem State.linesLeadTo_step (hs : step s = .next t) (ht : t.restsAt l = true) (hbelow : t.pc.tail = s.pc.tail)
    (hact : t.act = s.act) (hcfg : t.cfg = s.cfg) (hh : t.h = s.h) (hdev : t.device = s.device) :
    s.linesLeadTo [] l t :=
  ⟨State.reaches_step hs (State.reaches_refl t), ht, hbelow, hact, hcfg, hh.trans (List.append_nil _).symm, hdev⟩

/-- A line that is a named write and goes to another line. -/
theorem State.linesLeadTo_write (hs : s.restsAt l = true) (hl : ∀ u, runLine l u = await i u (.next (u.goto l')))
    (hi : (i, a, d) ∈ fixedWrites s.cfg.regmap) : s.linesLeadTo [.w8 a d] l' ((s.afterWrite a d).goto l') where
  reaches := State.reaches_of_await hs hl (exec_of_fixedWrites (s := s.passTime.passTime) hi) rfl
  restsAt := State.restsAt_goto (State.free_afterWrite (State.free_of_restsAt hs) a d) l'
  below := rfl
  act := rfl
  cfg := rfl
  h := rfl
  device := rfl

end Sys2Proof.Machine

/-! PROOFS. INIT's lines I1 to I8, and a whole negotiation by induction on its failing statuses (R107 to R114). -/

namespace Sys2Proof.Machine

variable {s t : State} {l : Label} {es es' : List Event} {st : Byte} {n : Nat}

/-! The lines (R107). -/

/-- I1 and I2 (R108, R113). -/
theorem State.linesLeadTo_i3 (hs : s.restsAt .i1 = true) : ∃ t : State,
    s.linesLeadTo [.w8 s.cfg.regmap.aMr s.cfg.regmap.mrRst, .w8 s.cfg.regmap.aImr 0x00] .i3 t ∧
      t.mode = .modeNegotiation ∧ t.initBank.nneg = some 0 := by
  have h1 : s.linesLeadTo [.w8 s.cfg.regmap.aMr s.cfg.regmap.mrRst] .i2 _ :=
    State.linesLeadTo_write hs (fun _ => rfl) (by simp [fixedWrites])
  have hfree := State.free_afterWrite (State.free_of_restsAt h1.restsAt) s.cfg.regmap.aImr 0x00
  have h2 := State.reaches_of_await (i := .imrClear) h1.restsAt (fun _ => rfl) rfl rfl
  exact ⟨_, h1.trans ⟨h2, State.restsAt_goto hfree .i3, rfl, rfl, rfl, rfl, rfl⟩, rfl, rfl⟩

/-- I3 with the bound reached (R112). -/
theorem step_i3_bound (hs : s.restsAt .i3 = true) (hn : s.initBank.nneg = some n) (hb : s.cfg.negBound = some n) :
    step s = .next (s.passTime.finish .negotiationTimeout) := by
  simp [step_of_restsAt hs, runLine, lineI3, hn, boundReached, hb]

/-- I3 with the bound not reached: one more iteration is counted (R112). -/
theorem step_i3_iterate (hs : s.restsAt .i3 = true) (hn : s.initBank.nneg = some n) (hb : s.cfg.negBound ≠ some n) :
    step s = .next (State.goto .i4 { s.passTime with initBank := { s.initBank with nneg := some (n + 1) } }) := by
  simp [step_of_restsAt hs, runLine, lineI3, hn, boundReached, hb]

/-- The frames of I4 to I6 whose status read answers `st` (R109). -/
def iterationFrames (rm : RegMap) (st : Byte) : List Event :=
  [.w8 (s0Mr rm) rm.smrMacraw, .w8 (s0Cr rm) rm.cmdOpen, .r8 (s0Sr rm) st]

/-- The status the device answers after the two write frames of I4 and I5 (R109). -/
def Device.statusAnswer (c : Config) (dev : Device) : Byte :=
  ((dev.afterFrames c [.w8 (s0Mr c.regmap) c.regmap.smrMacraw, .w8 (s0Cr c.regmap) c.regmap.cmdOpen]).read c
    (s0Sr c.regmap)).1

/-- I4 to I6 (R109). -/
theorem State.linesLeadTo_i7 (hs : s.restsAt .i4 = true) : ∃ t : State,
    s.linesLeadTo (iterationFrames s.cfg.regmap (s.device.statusAnswer s.cfg)) .i7 t ∧ t.mode = s.mode ∧
      t.initBank = { s.initBank with st := some (s.device.statusAnswer s.cfg) } := by
  have h4 : s.linesLeadTo [.w8 (s0Mr s.cfg.regmap) s.cfg.regmap.smrMacraw] .i5 _ :=
    State.linesLeadTo_write hs (fun _ => rfl) (by simp [fixedWrites])
  have h5 : State.linesLeadTo _ [.w8 (s0Cr s.cfg.regmap) s.cfg.regmap.cmdOpen] .i6 _ :=
    State.linesLeadTo_write h4.restsAt (fun _ => rfl) (by simp [fixedWrites])
  have hfree := State.free_afterRead (State.free_of_restsAt h5.restsAt) (s0Sr s.cfg.regmap)
  have h6 := State.reaches_of_awaitData (i := .readSr) h5.restsAt (fun _ => rfl) rfl rfl
  refine ⟨_, h4.trans (h5.trans ⟨h6, State.restsAt_goto hfree .i7, rfl, rfl, rfl, rfl, rfl⟩), rfl, ?_⟩
  exact congrArg (fun b => InitBank.mk (some b) s.initBank.nneg) (loByte_zeroExtend _)

/-- I7 at the raw-frame code (R110). -/
theorem step_i7_raw (hs : s.restsAt .i7 = true) (hst : s.initBank.st = some s.cfg.regmap.ssrMacraw) :
    step s = .next (State.finish .done { s.passTime with mode := .rawActive }) := by
  simp [step_of_restsAt hs, runLine, lineI7, hst]

/-- I7 at any other status, then I8 (R111). -/
theorem State.linesLeadTo_close (hs : s.restsAt .i7 = true) (hst : s.initBank.st = some st)
    (hne : st ≠ s.cfg.regmap.ssrMacraw) : ∃ t : State,
    s.linesLeadTo [.w8 (s0Cr s.cfg.regmap) s.cfg.regmap.cmdClose] .i3 t ∧ t.mode = s.mode ∧ t.initBank = s.initBank := by
  have hi8 := State.restsAt_goto (State.free_passTime (State.free_of_restsAt hs)) .i8
  have hstep : step s = .next (s.passTime.goto .i8) := by simp [step_of_restsAt hs, runLine, lineI7, hst, hne]
  have h7 := State.linesLeadTo_step hstep hi8 rfl rfl rfl rfl rfl
  have h8 : State.linesLeadTo _ [.w8 (s0Cr s.cfg.regmap) s.cfg.regmap.cmdClose] .i3 _ :=
    State.linesLeadTo_write hi8 (fun _ => rfl) (by simp [fixedWrites])
  exact ⟨_, h7.trans h8, rfl, rfl⟩

/-! The statements about the lines. -/

/-- Settles O27: the two lines' frames, and what I2 sets. -/
theorem softResetThenMask : Obligations.SoftResetThenMask := by
  intro s hs
  obtain ⟨t, hlead, hmode, hnneg⟩ := State.linesLeadTo_i3 hs
  exact ⟨t, hlead.reaches, hlead.h, hmode, hnneg, hlead.restsAt⟩

/-- Settles O28: the three lines' frames, and the status answered. -/
theorem negotiationIteration : Obligations.NegotiationIteration := by
  intro s hs
  obtain ⟨t, hlead, hmode, hbank⟩ := State.linesLeadTo_i7 hs
  exact ⟨_, t, hlead.reaches, rfl, hlead.h, congrArg InitBank.st hbank, hmode, hlead.restsAt⟩

/-- Settles O29: I7 ends INIT, or goes on with I8. -/
theorem statusDecidesNegotiation : Obligations.StatusDecidesNegotiation := by
  intro s st hs hst
  refine ⟨fun hraw hact => ?_, fun hne => ?_⟩
  · exact ⟨_, step_i7_raw hs (hraw ▸ hst), rfl, congrArg Act.restored hact, rfl, rfl, if_neg (by simp [hact])⟩
  · obtain ⟨t, hlead, hmode, -⟩ := State.linesLeadTo_close hs hst hne
    exact ⟨t, hlead.reaches, hlead.h, hmode, hlead.restsAt⟩

/-- Settles O30: I3 ends INIT, or counts one more iteration. -/
theorem negotiationBound : Obligations.NegotiationBound := by
  intro s n hs hn
  refine ⟨fun hb hact => ?_, fun hb => ?_⟩
  · obtain ⟨hfault, -⟩ := State.undisturbed_iff.1 (State.restsAt_iff.1 hs).1
    exact ⟨_, step_i3_bound hs hn hb, congrArg Act.restored hact, rfl, rfl, if_neg (by simp [hact]), hfault⟩
  · exact ⟨_, step_i3_iterate hs hn hb, rfl, rfl,
      State.restsAt_goto (State.free_passTime (State.free_of_restsAt hs)) .i4⟩

/-! The device's statuses (R109, R111). -/

/-- The third coming turn of the device tells the status it answers. -/
theorem Device.statusAnswer_of_turns {c : Config} {dev : Device} {x y z : DeviceTurn} {ts : List DeviceTurn}
    (h : dev.turns = x :: y :: z :: ts) (hz : z.answer = some st) : dev.statusAnswer c = st :=
  Device.read_of_answer (t := z) (ts := ts) (by simp [Device.afterFrames, h]) hz

theorem statusAnswers_nil {rm : RegMap} {ts : List DeviceTurn} (h : statusAnswers rm [] ts = true) :
    ∃ x y z ts', ts = x :: y :: z :: ts' ∧ z.answer = some rm.ssrMacraw := by
  match ts with
  | x :: y :: z :: ts' => exact ⟨x, y, z, ts', rfl, beq_iff_eq.1 h⟩
  | [] | [_] | [_, _] => simp [statusAnswers] at h

theorem statusAnswers_cons {rm : RegMap} {sts : List Byte} {ts : List DeviceTurn}
    (h : statusAnswers rm (st :: sts) ts = true) :
    ∃ x y z w ts', ts = x :: y :: z :: w :: ts' ∧ z.answer = some st ∧ statusAnswers rm sts ts' = true := by
  match ts with
  | x :: y :: z :: w :: ts' =>
    rw [statusAnswers, Bool.and_eq_true] at h
    exact ⟨x, y, z, w, ts', rfl, beq_iff_eq.1 h.1, h.2⟩
  | [] | [_] | [_, _] | [_, _, _] => simp [statusAnswers] at h

/-! A whole negotiation (R114). -/

/-- INIT issues the frames `es` from `s` on and ends in RawActive. -/
def State.initSucceeds (s : State) (es : List Event) : Prop :=
  ∃ t : State, s.reaches t ∧ t.mode = .rawActive ∧ t.act = .idle ∧ t.pc = s.pc.tail ∧ t.h = s.h ++ es ++ [.ret .done]

theorem State.initSucceeds_of_linesLeadTo (h : s.linesLeadTo es l t) (ht : t.initSucceeds es') :
    s.initSucceeds (es ++ es') := by
  obtain ⟨u, hreach, hmode, hact, hpc, hh⟩ := ht
  refine ⟨u, State.reaches_trans h.reaches hreach, hmode, hact, hpc.trans h.below, ?_⟩
  rw [hh, h.h, List.append_assoc s.h]

/-- I7 at the raw-frame code ends INIT with no frame (R110). -/
theorem State.initSucceeds_of_raw (hs : s.restsAt .i7 = true) (hact : s.act = .inInit)
    (hst : s.initBank.st = some s.cfg.regmap.ssrMacraw) : s.initSucceeds [] :=
  ⟨_, State.reaches_step (step_i7_raw hs hst) (State.reaches_refl _), rfl, congrArg Act.restored hact, rfl,
    congrArg (· ++ _) (List.append_nil s.h).symm⟩

/-- One iteration from I3 to I7, the bound not reached (R109, R112). -/
theorem State.linesLeadTo_iteration (hs : s.restsAt .i3 = true) (hn : s.initBank.nneg = some n)
    (hb : s.cfg.negBound ≠ some n) (hst : s.device.statusAnswer s.cfg = st) : ∃ t : State,
    s.linesLeadTo (iterationFrames s.cfg.regmap st) .i7 t ∧ t.initBank = ⟨some st, some (n + 1)⟩ := by
  have hi4 := State.restsAt_goto (State.free_passTime (State.free_of_restsAt hs)) .i4
  have h3 := State.linesLeadTo_step (step_i3_iterate hs hn hb) hi4 rfl rfl rfl rfl rfl
  obtain ⟨t, h7, -, hbank⟩ := State.linesLeadTo_i7 h3.restsAt
  subst hst
  exact ⟨t, h3.trans h7, hbank⟩

/-- From I3 on INIT goes through the failing statuses and ends at the raw-frame code, by induction on the statuses. -/
theorem State.initSucceeds_of_statusAnswers (sts : List Byte) : ∀ {s : State} {n : Nat}, s.restsAt .i3 = true →
    s.act = .inInit → s.initBank.nneg = some n → (∀ b, s.cfg.negBound = some b → n + sts.length < b) →
    (∀ st ∈ sts, st ≠ s.cfg.regmap.ssrMacraw) → statusAnswers s.cfg.regmap sts s.device.turns = true →
    s.initSucceeds (failedIterations s.cfg.regmap sts ++ iterationFrames s.cfg.regmap s.cfg.regmap.ssrMacraw) := by
  induction sts with
  | nil =>
    intro s n hs hact hn hbound _ hturns
    obtain ⟨x, y, z, ts, hts, hz⟩ := statusAnswers_nil hturns
    have hb : s.cfg.negBound ≠ some n := fun h => absurd (hbound n h) (Nat.lt_irrefl n)
    obtain ⟨t, h7, hbank⟩ := State.linesLeadTo_iteration hs hn hb (Device.statusAnswer_of_turns hts hz)
    have hraw := State.initSucceeds_of_raw h7.restsAt (h7.act.trans hact) (by rw [hbank, h7.cfg])
    exact (State.initSucceeds_of_linesLeadTo h7 hraw :)
  | cons st sts ih =>
    intro s n hs hact hn hbound hne hturns
    obtain ⟨x, y, z, w, ts, hts, hz, hrest⟩ := statusAnswers_cons hturns
    rw [List.forall_mem_cons] at hne
    have hb : s.cfg.negBound ≠ some n := fun h => absurd (hbound n h) (by omega)
    obtain ⟨t, h7, hbank⟩ := State.linesLeadTo_iteration hs hn hb (Device.statusAnswer_of_turns hts hz)
    obtain ⟨u, h8, -, hbank'⟩ :=
      State.linesLeadTo_close h7.restsAt (congrArg InitBank.st hbank) (by rw [h7.cfg]; exact hne.1)
    rw [h7.cfg] at h8
    have h := h7.trans h8
    have hturns' : u.device.turns = ts := by simp [h.device, iterationFrames, Device.afterFrames, hts]
    have hgo := ih (s := u) (n := n + 1) h.restsAt (h.act.trans hact) (by rw [hbank', hbank])
    rw [h.cfg, hturns'] at hgo
    have hbound' : ∀ b, s.cfg.negBound = some b → n + 1 + sts.length < b := fun b hb => by
      have := hbound b hb
      rw [List.length_cons] at this
      omega
    exact (State.initSucceeds_of_linesLeadTo h (hgo hbound' hne.2 hrest) :)

theorem failedIterations_length (rm : RegMap) (sts : List Byte) : (failedIterations rm sts).length = 4 * sts.length := by
  induction sts with
  | nil => rfl
  | cons st sts ih => simp [failedIterations, ih]; omega

theorem negotiation_eq (rm : RegMap) (sts : List Byte) : negotiation rm sts =
    [.w8 rm.aMr rm.mrRst, .w8 rm.aImr 0x00] ++ (failedIterations rm sts ++ iterationFrames rm rm.ssrMacraw) := rfl

/-- Settles O31: INIT is admitted, I1 and I2 lead to I3, and the negotiation goes through the statuses from there. -/
theorem negotiationCounts : Obligations.NegotiationCounts := by
  intro s sts t1 t2 ts hs hact hmode hbound hne hturns hanswers
  obtain ⟨s, hfree, rfl⟩ := State.eq_issue_of_runsNext hs
  have hadmit := (requestsAreAdmitted s.passTime).1 hact hmode
  have hi1 := State.restsAt_enter (s := { s.passTime with initBank := .unwritten }) (State.free_passTime hfree) .inInit .i1
  obtain ⟨u, hlead, -, hnneg⟩ := State.linesLeadTo_i3 hi1
  rw [State.issue_device] at hturns
  have hu : u.device.turns = ts := by simp [hlead.device, Device.afterFrames, hturns]
  have hgo := State.initSucceeds_of_statusAnswers sts hlead.restsAt hlead.act hnneg
  rw [hlead.cfg, hu] at hgo
  obtain ⟨t, hreach, hmode', hact', hpc, hh⟩ := State.initSucceeds_of_linesLeadTo hlead
    (hgo (by simpa using hbound) hne hanswers)
  refine ⟨t, State.reaches_step ((step_issue hfree .init).trans hadmit) hreach, hmode', hact', hpc, hh, ?_⟩
  simp [negotiation_eq, failedIterations_length, iterationFrames]

end Sys2Proof.Machine

/-! PROOFS. POLL_ONCE's lines P1 to P5, and the poll without channel traffic (R115 to R120, R123). -/

namespace Sys2Proof.Machine

variable {s t : State} {l : Label} {i : Instr} {a : Word} {d v : Byte}

/-! A line's bus frame where the line itself rests on what the state holds: it is enough that the line waits for the operation
where it begins and where it goes on (log 6). -/

/-- A line that waits for a write in `s` leads to where it goes on after the frame. -/
theorem State.reaches_of_lineWrite {k : Answer} (hs : s.restsAt l = true)
    (hi : exec i s.passTime.passTime = runWrite a d s.passTime.passTime) (hl : runLine l s.passTime = await i s.passTime k)
    (hgo : runLine l (s.afterWrite a d) = await i (s.afterWrite a d) (.next t)) : s.reaches t := by
  obtain ⟨-, -, -, -, hres⟩ := State.restsAt_iff.1 hs
  refine State.reaches_of_issue hs ?_ hi (onlyBus_answer_busWrite a d _ _) ?_
  · simp only [hl, await, State.passTime_opResult, hres]
  · rw [← State.afterWrite_eq, hgo]
    rfl

/-- A line that waits for a read's value in `s` leads to where it goes on with the device's answer. -/
theorem State.reaches_of_lineRead {k k' : Word → Answer} (hs : s.restsAt l = true)
    (hi : exec i s.passTime.passTime = runRead a s.passTime.passTime) (hl : runLine l s.passTime = awaitData i s.passTime k)
    (hgo : runLine l (s.afterRead a) = awaitData i (s.afterRead a) k')
    (ht : k' (zeroExtend (s.device.read s.cfg a).1) = .next t) : s.reaches t := by
  obtain ⟨-, -, -, -, hres⟩ := State.restsAt_iff.1 hs
  refine State.reaches_of_issue hs ?_ hi (onlyBus_answer_busRead a _ _) ?_
  · simp only [hl, awaitData, State.passTime_opResult, hres]
  · rw [busRead_fst, State.passTime_device, State.passTime_device, State.passTime_cfg, State.passTime_cfg,
      ← State.afterRead_eq, hgo, ← ht]
    rfl

/-- A line that goes to another one at once, which the machine then rests at. -/
theorem step_goto_of_restsAt {l' : Label} (hs : s.restsAt l = true)
    (hl : runLine l s.passTime = .next (s.passTime.goto l')) :
    step s = .next (s.passTime.goto l') ∧ (s.passTime.goto l').restsAt l' = true :=
  ⟨(step_of_restsAt hs).trans hl, State.restsAt_goto (State.free_passTime (State.free_of_restsAt hs)) l'⟩

/-! What each line does with its snapshot (R115). -/

theorem lineP2_set (hir : s.poll.ir = some v) (hf : flagSet v s.cfg.regmap.irS0 = true) : lineP2 s =
    awaitData .readS0Ir s fun w => .next ({ s with poll := { s.poll with sir := some (loByte w) } }.goto .p3) := by
  simp [lineP2, hir, hf]

theorem lineP2_clear (hir : s.poll.ir = some v) (hf : flagSet v s.cfg.regmap.irS0 = false) :
    lineP2 s = .next (s.goto .p5) := by
  simp [lineP2, hir, hf]

theorem lineP3_set (hsir : s.poll.sir = some v) (hf : flagSet v s.cfg.regmap.sirSendOk = true) :
    lineP3 s = await .ackSendOk s (.next (s.goto .p4)) := by
  simp [lineP3, hsir, hf]

theorem lineP3_clear (hsir : s.poll.sir = some v) (hf : flagSet v s.cfg.regmap.sirSendOk = false) :
    lineP3 s = .next (s.goto .p4) := by
  simp [lineP3, hsir, hf]

theorem lineP4_set (hsir : s.poll.sir = some v) (hf : flagSet v s.cfg.regmap.sirRecv = true) :
    lineP4 s = .next (s.issue .receiveDrain) := by
  simp [lineP4, hsir, hf]

theorem lineP4_clear (hsir : s.poll.sir = some v) (hf : flagSet v s.cfg.regmap.sirRecv = false) :
    lineP4 s = .next (s.goto .p5) := by
  simp [lineP4, hsir, hf]

theorem lineP5_await (hir : s.poll.ir = some v) : lineP5 s = await (.ackIr v) s (.next (s.finish .done)) := by
  simp [lineP5, hir]

/-! The lines of a run (R116 to R120). -/

/-- P1 with a non-zero answer (R116). -/
theorem State.linesLeadTo_p2 (hs : s.restsAt .p1 = true) (hd : (s.device.read s.cfg s.cfg.regmap.aIr).1 = v)
    (hv : v ≠ 0x00) : ∃ t : State,
    s.linesLeadTo [.r8 s.cfg.regmap.aIr v] .p2 t ∧ t.poll = { s.poll with ir := some v } := by
  have hreach : s.reaches
      ({ s.afterRead s.cfg.regmap.aIr with poll := { s.poll with ir := some v } }.goto .p2) :=
    State.reaches_of_awaitData (i := .readIr) (a := s.cfg.regmap.aIr) hs (fun _ => rfl) rfl (by
      simp only [loByte_zeroExtend, hd, if_neg hv]
      rfl)
  have hfree := State.free_afterRead (State.free_of_restsAt hs) s.cfg.regmap.aIr
  exact ⟨_, ⟨hreach, State.restsAt_goto hfree .p2, rfl, rfl, rfl, by rw [← hd]; rfl, rfl⟩, rfl⟩

/-- P2 with the channel-0 bit in the snapshot (R117). -/
theorem State.linesLeadTo_p3 (hs : s.restsAt .p2 = true) (hir : s.poll.ir = some v)
    (hf : flagSet v s.cfg.regmap.irS0 = true) : ∃ t : State,
    s.linesLeadTo [.r8 (s0Ir s.cfg.regmap) (s.device.read s.cfg (s0Ir s.cfg.regmap)).1] .p3 t ∧
      t.poll = ⟨some v, some (s.device.read s.cfg (s0Ir s.cfg.regmap)).1⟩ := by
  have hreach := State.reaches_of_lineRead (i := .readS0Ir) hs rfl (lineP2_set hir hf) (lineP2_set hir hf) rfl
  have hfree := State.free_afterRead (State.free_of_restsAt hs) (s0Ir s.cfg.regmap)
  refine ⟨_, ⟨hreach, State.restsAt_goto hfree .p3, rfl, rfl, rfl, rfl, rfl⟩, ?_⟩
  exact congrArg₂ (fun x y => PollBank.mk x (some y)) hir (loByte_zeroExtend _)

/-- P5: the write-back, and the poll's end (R120). -/
theorem State.pollEnds_of_p5 (hs : s.restsAt .p5 = true) (hir : s.poll.ir = some v) (hact : s.act = .inPoll) :
    ∃ t : State, s.reaches t ∧ t.h = s.h ++ [.w8 s.cfg.regmap.aIr v, .ret .done] ∧ t.act = .idle ∧ t.pc = s.pc.tail := by
  have hreach := State.reaches_of_lineWrite (i := .ackIr v) hs rfl (lineP5_await hir) (lineP5_await hir)
  exact ⟨_, hreach, List.append_assoc _ _ _, congrArg Act.restored hact, rfl⟩

/-! The statements. -/

/-- Settles O32: P1 ends the poll at a zero answer. -/
theorem pollFastPath : Obligations.PollFastPath := by
  intro s hs hact hzero
  have hreach : s.reaches
      ({ s.afterRead s.cfg.regmap.aIr with poll := { s.poll with ir := some 0x00 } }.finish .done) :=
    State.reaches_of_awaitData (i := .readIr) (a := s.cfg.regmap.aIr) hs (fun _ => rfl) rfl (by
      simp only [loByte_zeroExtend, hzero, if_true]
      rfl)
  refine ⟨_, hreach, congrArg Act.restored hact, rfl, ?_, if_neg (by simp [State.afterRead, hact])⟩
  simp [State.afterRead, hzero]

/-- Settles O33: P1 leads to P2, P2 without a frame to P5, and P5 ends the poll. -/
theorem alarmOnlyPoll : Obligations.AlarmOnlyPoll := by
  intro s v hs hact hd hv hf
  obtain ⟨t, hlead, hpoll⟩ := State.linesLeadTo_p2 hs hd hv
  have hir : t.poll.ir = some v := congrArg PollBank.ir hpoll
  obtain ⟨hstep, hp5⟩ := step_goto_of_restsAt hlead.restsAt (lineP2_clear (s := t.passTime) hir (by simpa [hlead.cfg]))
  have hlead5 := hlead.trans (State.linesLeadTo_step hstep hp5 rfl rfl rfl rfl rfl)
  obtain ⟨u, hreach, hh, hidle, hpc⟩ := State.pollEnds_of_p5 hp5 hir (hlead.act.trans hact)
  refine ⟨u, State.reaches_trans hlead5.reaches hreach, hidle, hpc.trans hlead5.below, ?_⟩
  rw [hh, hlead5.h, hlead5.cfg, List.append_assoc]
  rfl

/-- Settles O34: P1 goes on at P2, and P2 reads the channel register or goes to the write-back. -/
theorem channelReadIffBitSet : Obligations.ChannelReadIffBitSet := by
  intro s v
  refine ⟨fun hs hd hv => ?_, fun hs hir hf => ?_, fun hs hir hf => ?_⟩
  · obtain ⟨t, hlead, hpoll⟩ := State.linesLeadTo_p2 hs hd hv
    exact ⟨t, hlead.reaches, hlead.h, hpoll, hlead.act, hlead.restsAt⟩
  · obtain ⟨t, hlead, hpoll⟩ := State.linesLeadTo_p3 hs hir hf
    exact ⟨_, t, hlead.reaches, rfl, hlead.h, hpoll, hlead.restsAt⟩
  · obtain ⟨hstep, hp5⟩ := step_goto_of_restsAt hs (lineP2_clear (s := s.passTime) hir hf)
    exact ⟨_, hstep, rfl, rfl, hp5⟩

/-- Settles O35: P3 writes the send-complete bit, or goes to P4 at once. -/
theorem sendCompleteIsAcknowledged : Obligations.SendCompleteIsAcknowledged := by
  intro s v hs hsir
  refine ⟨fun hf => ?_, fun hf => ?_⟩
  · have hreach := State.reaches_of_lineWrite (i := .ackSendOk) hs rfl (lineP3_set hsir hf) (lineP3_set hsir hf)
    exact ⟨_, hreach, rfl, rfl, State.restsAt_goto (State.free_afterWrite (State.free_of_restsAt hs) _ _) .p4⟩
  · obtain ⟨hstep, hp4⟩ := step_goto_of_restsAt hs (lineP3_clear (s := s.passTime) hsir hf)
    exact ⟨_, hstep, rfl, rfl, hp4⟩

/-- Settles O36: P4 issues RECEIVE_DRAIN, which enters D1, or goes to P5; P5 ends the poll. -/
theorem receiveServiceAndWriteBack : Obligations.ReceiveServiceAndWriteBack := by
  intro s v
  refine ⟨fun hs hsir hf => ?_, fun hs hsir hf => ?_, fun hs hir hact => State.pollEnds_of_p5 hs hir hact⟩
  · have hfree := State.free_passTime (State.free_of_restsAt hs)
    have hissue : step s = .next (s.passTime.issue .receiveDrain) :=
      (step_of_restsAt hs).trans (lineP4_set (s := s.passTime) hsir hf)
    have hdrain : step (s.passTime.issue .receiveDrain) = .next (s.passTime.passTime.goto .d1) := step_issue hfree _
    exact ⟨_, State.reaches_step hissue (State.reaches_step hdrain (State.reaches_refl _)), rfl,
      State.restsAt_goto (State.free_passTime hfree) .d1⟩
  · obtain ⟨hstep, hp5⟩ := step_goto_of_restsAt hs (lineP4_clear (s := s.passTime) hsir hf)
    exact ⟨_, hstep, rfl, hp5⟩

end Sys2Proof.Machine

/-! PROOFS. RECEIVE_DRAIN's lines D1 to D9, from its entry to the callout or past a dropped frame, and the callout's return
(R125 to R132, R144, R146). -/

namespace Sys2Proof.Machine

variable {s t u v : State} {l l' : Label} {i : Instr} {a p n w : Word} {bs : List Byte} {es es' : List Event}
  {point : AckPoint}

/-- Settles O25: the entry is a move of the sequencer. -/
theorem receiveDrainIsEntered : Obligations.ReceiveDrainIsEntered := fun _ => rfl

theorem State.restsAt_passTime (hs : s.restsAt l = true) : s.passTime.restsAt l = true := by
  obtain ⟨hu, hpc, hop, hp, hres⟩ := State.restsAt_iff.1 hs
  exact State.restsAt_iff.2 ⟨State.undisturbed_of hu rfl rfl (.inr rfl), hpc, hop, hp, hres⟩

/-! A line's operation of several bus frames (R94, R95, R100; log 12). -/

/-- A line that issues an operation leads to where it goes on once all its frames have run. -/
theorem State.reaches_of_operation (hs : s.restsAt l = true) (hl : runLine l s.passTime = .next (s.passTime.issue i))
    (hi : exec i s.passTime.passTime = .next v) (hv : v.reaches u) (hu : u.free = true) (hpc : u.pc = s.pc)
    (ht : runLine l u.passTime = .next t) : s.reaches t := by
  obtain ⟨hund, hop, hp⟩ := State.free_iff.1 hu
  obtain ⟨-, ⟨rest, hrest⟩, -⟩ := State.restsAt_iff.1 hs
  have hissued := step_issue (State.free_passTime (State.free_of_restsAt hs)) i
  have hgo := step_line hund hp hop (hpc.trans hrest)
  exact State.reaches_step ((step_of_restsAt hs).trans hl) (State.reaches_step (hissued.trans hi)
    (State.reaches_trans hv (State.reaches_step (hgo.trans ht) (State.reaches_refl t))))

/-- The device after the two frames of a READ16 at `a` (R94). -/
def Device.afterWord (c : Config) (a : Word) (dev : Device) : Device := ((dev.read c a).2.read c (nextAddr a)).2

/-- The two frames of a READ16 at `a`, with the device's answers (R94). -/
def Device.wordReads (c : Config) (a : Word) (dev : Device) : List Event :=
  read16Events a (dev.read c a).1 ((dev.read c a).2.read c (nextAddr a)).1

/-- The state in which a line goes on after the READ16 it issued, its fourth step begun. -/
def State.afterRead16 (a : Word) (s : State) : State :=
  { s with
    opResult := .data (s.device.wordAnswer s.cfg a)
    h := s.h ++ s.device.wordReads s.cfg a
    bus := (s.bus.frame s.cfg.opRead a 0x00).frame s.cfg.opRead (nextAddr a) 0x00
    device := s.device.afterWord s.cfg a
    host := afterPause (afterPause (afterPause (afterPause s.host))) }

/-- The state in which a line goes on after the WRITE16 it issued, its fourth step begun. -/
def State.afterWrite16 (a w : Word) (s : State) : State :=
  { s with
    opResult := .done
    h := s.h ++ write16Events a w
    bus := (s.bus.frame s.cfg.opWrite a (hiByte w)).frame s.cfg.opWrite (nextAddr a) (loByte w)
    device := (s.device.write s.cfg a (hiByte w)).write s.cfg (nextAddr a) (loByte w)
    host := afterPause (afterPause (afterPause (afterPause s.host))) }

@[simp] theorem State.afterRead16_cfg (a : Word) (s : State) : (s.afterRead16 a).cfg = s.cfg := rfl

@[simp] theorem State.afterWrite16_cfg (a w : Word) (s : State) : (s.afterWrite16 a w).cfg = s.cfg := rfl

/-- The second frame of a READ16, in the next step of a free engine (R94). -/
theorem step_read16Low (hs : s.free = true) (a : Word) (hi : Byte) : step (s.pend (.read16Low a hi)) =
    .next ((busRead a s.passTime).2.answer (.data (concatBytes hi (busRead a s.passTime).1))) :=
  step_pend_of_free hs _

/-- The second frame of a WRITE16, in the next step of a free engine (R95). -/
theorem step_write16Low (hs : s.free = true) (a : Word) (lo : Byte) :
    step (s.pend (.write16Low a lo)) = .next ((busWrite a lo s.passTime).answer .done) :=
  step_pend_of_free hs _

/-- A READ16 of a free engine runs in two steps (R94). -/
theorem exec_read16_reaches (hs : s.free = true) (a : Word) : ∃ v u, exec (.read16 a) s.passTime.passTime = .next v ∧
    v.reaches u ∧ u.free = true ∧ u.pc = s.pc ∧ u.passTime = s.afterRead16 a := by
  have hhigh : (busRead a s.passTime.passTime).2.free = true :=
    State.free_of_onlyBus rfl (State.free_passTime (State.free_passTime hs))
  have hlow := step_read16Low hhigh (nextAddr a) (busRead a s.passTime.passTime).1
  refine ⟨_, _, rfl, State.reaches_step hlow (State.reaches_refl _), ?_, by simp, ?_⟩
  · exact State.free_of_onlyBus (onlyBus_answer_busRead _ _ _) (State.free_passTime hhigh)
  · simp [State.afterRead16, State.passTime, State.answer, busRead, State.emit, Device.wordReads, read16Events,
      Device.wordAnswer, Device.afterWord]

/-- A WRITE16 of a free engine runs in two steps (R95). -/
theorem exec_write16_reaches (hs : s.free = true) (a w : Word) : ∃ v u,
    exec (.write16 a w) s.passTime.passTime = .next v ∧ v.reaches u ∧ u.free = true ∧ u.pc = s.pc ∧
      u.passTime = s.afterWrite16 a w := by
  have hhigh : (busWrite a (hiByte w) s.passTime.passTime).free = true :=
    State.free_of_onlyBus rfl (State.free_passTime (State.free_passTime hs))
  have hlow := step_write16Low hhigh (nextAddr a) (loByte w)
  refine ⟨_, _, rfl, State.reaches_step hlow (State.reaches_refl _), ?_, by simp, ?_⟩
  · exact State.free_of_onlyBus (onlyBus_answer_busWrite _ _ _ _) (State.free_passTime hhigh)
  · simp [State.afterWrite16, State.passTime, State.answer, busWrite, State.emit, write16Events]

theorem State.free_afterRead16 (hs : s.free = true) (a : Word) : (s.afterRead16 a).free = true := by
  obtain ⟨-, u, -, -, hfree, -, hu⟩ := exec_read16_reaches hs a
  exact hu ▸ State.free_passTime hfree

theorem State.free_afterWrite16 (hs : s.free = true) (a w : Word) : (s.afterWrite16 a w).free = true := by
  obtain ⟨-, u, -, -, hfree, -, hu⟩ := exec_write16_reaches hs a w
  exact hu ▸ State.free_passTime hfree

/-- A line that waits for a READ16's value leads to where it goes on with the word the device answers. -/
theorem State.reaches_of_lineRead16 {k : Word → Answer} (hs : s.restsAt l = true)
    (hl : runLine l s.passTime = awaitData (.read16 a) s.passTime k) (hgo : runLine l (s.afterRead16 a) = .next t) :
    s.reaches t := by
  obtain ⟨-, -, -, -, hres⟩ := State.restsAt_iff.1 hs
  obtain ⟨v, u, hexec, hreach, hfree, hpc, hu⟩ := exec_read16_reaches (State.free_of_restsAt hs) a
  refine State.reaches_of_operation hs ?_ hexec hreach hfree hpc ?_
  · simp only [hl, awaitData, State.passTime_opResult, hres]
  · rw [hu, hgo]

/-- A line that waits for a WRITE16 leads to where it goes on after the two frames. -/
theorem State.reaches_of_lineWrite16 {k : Answer} (hs : s.restsAt l = true)
    (hl : runLine l s.passTime = await (.write16 a w) s.passTime k) (hgo : runLine l (s.afterWrite16 a w) = .next t) :
    s.reaches t := by
  obtain ⟨-, -, -, -, hres⟩ := State.restsAt_iff.1 hs
  obtain ⟨v, u, hexec, hreach, hfree, hpc, hu⟩ := exec_write16_reaches (State.free_of_restsAt hs) a w
  refine State.reaches_of_operation hs ?_ hexec hreach hfree hpc ?_
  · simp only [hl, await, State.passTime_opResult, hres]
  · rw [hu, hgo]

/-! Runs of lines that leave the frame buffer and LEN as they are. -/

/-- From `s` the lines lead to `t`, at rest at `l`, with FB and LEN as before. -/
structure State.linesKeepFb (s : State) (es : List Event) (l : Label) (t : State) : Prop
    extends lines : s.linesLeadTo es l t where
  fb : t.fb = s.fb
  len : t.len = s.len

theorem State.linesKeepFb.trans (h : s.linesKeepFb es l t) (h' : t.linesKeepFb es' l' u) :
    s.linesKeepFb (es ++ es') l' u where
  lines := h.lines.trans h'.lines
  fb := h'.fb.trans h.fb
  len := h'.len.trans h.len

/-- A line that goes to another one at once. -/
theorem State.linesKeepFb_goto (hs : s.restsAt l = true) (hl : runLine l s.passTime = .next (s.passTime.goto l')) :
    s.linesKeepFb [] l' (s.passTime.goto l') := by
  obtain ⟨hstep, ht⟩ := step_goto_of_restsAt hs hl
  exact ⟨State.linesLeadTo_step hstep ht rfl rfl rfl rfl rfl, rfl, rfl⟩

/-! D1 to D3: the size, the pointer, and whether the frame fits (R126, R128, R129). -/

/-- The device after D1's READ16, from which D2's pointer is read (R128). -/
def Device.afterSize (c : Config) (dev : Device) : Device := dev.afterWord c (s0RxRsr c.regmap)

/-- The frames of D1 and D2, with the device's answers (R126, R128). -/
def Device.headReads (c : Config) (dev : Device) : List Event :=
  dev.wordReads c (s0RxRsr c.regmap) ++ (dev.afterSize c).wordReads c (s0RxRd c.regmap)

/-- The received size that D1 reads (R126). -/
def Device.receivedSize (c : Config) (dev : Device) : Word := dev.wordAnswer c (s0RxRsr c.regmap)

/-- The read pointer that D2 reads after it (R128). -/
def Device.readPointer (c : Config) (dev : Device) : Word := (dev.afterSize c).wordAnswer c (s0RxRd c.regmap)

/-- The RX bank once D1 and D2 have read `rsr` and `rd0` (R126, R128). -/
def RxBank.withHead (c : Config) (rsr rd0 : Word) (rx : RxBank) : RxBank :=
  { rx with rsr := some rsr, size := some (rxSize c rsr), rd0 := some rd0, rcur := some (rxCursor c rd0) }

theorem State.linesKeepFb_d2 (hs : s.restsAt .d1 = true) : ∃ t : State,
    s.linesKeepFb (s.device.wordReads s.cfg (s0RxRsr s.cfg.regmap)) .d2 t ∧
      t.rx = { s.rx with
        rsr := some (s.device.receivedSize s.cfg), size := some (rxSize s.cfg (s.device.receivedSize s.cfg)) } := by
  have hreach := State.reaches_of_lineRead16 (a := s0RxRsr s.cfg.regmap) hs rfl rfl
  have hfree := State.free_afterRead16 (State.free_of_restsAt hs) (s0RxRsr s.cfg.regmap)
  exact ⟨_, ⟨⟨hreach, State.restsAt_goto hfree .d2, rfl, rfl, rfl, rfl, rfl⟩, rfl, rfl⟩, rfl⟩

theorem State.linesKeepFb_d3 (hs : s.restsAt .d2 = true) : ∃ t : State,
    s.linesKeepFb (s.device.wordReads s.cfg (s0RxRd s.cfg.regmap)) .d3 t ∧
      t.rx = { s.rx with
        rd0 := some (s.device.wordAnswer s.cfg (s0RxRd s.cfg.regmap))
        rcur := some (rxCursor s.cfg (s.device.wordAnswer s.cfg (s0RxRd s.cfg.regmap))) } := by
  have hreach := State.reaches_of_lineRead16 (a := s0RxRd s.cfg.regmap) hs rfl rfl
  have hfree := State.free_afterRead16 (State.free_of_restsAt hs) (s0RxRd s.cfg.regmap)
  exact ⟨_, ⟨⟨hreach, State.restsAt_goto hfree .d3, rfl, rfl, rfl, rfl, rfl⟩, rfl, rfl⟩, rfl⟩

/-- D1 and D2 (R126, R128). -/
theorem State.linesKeepFb_head (hs : s.restsAt .d1 = true) : ∃ t : State,
    s.linesKeepFb (s.device.headReads s.cfg) .d3 t ∧
      t.rx = s.rx.withHead s.cfg (s.device.receivedSize s.cfg) (s.device.readPointer s.cfg) := by
  obtain ⟨t, h1, hrx⟩ := State.linesKeepFb_d2 hs
  have hdevice : t.device = s.device.afterSize s.cfg := h1.device
  obtain ⟨u, h2, hrx'⟩ := State.linesKeepFb_d3 h1.restsAt
  rw [h1.cfg, hdevice] at h2 hrx'
  exact ⟨u, h1.trans h2, by rw [hrx', hrx]; rfl⟩

/-- D3 (R129). -/
theorem State.linesKeepFb_d4 (hs : s.restsAt .d3 = true) (hn : s.rx.size = some n) : ∃ t : State,
    s.linesKeepFb [] .d4 t ∧ t.rx = { s.rx with drop := some (rxOversized s.cfg n) } := by
  have hstep : step s =
      .next (State.goto .d4 { s.passTime with rx := { s.rx with drop := some (rxOversized s.cfg n) } }) := by
    simp [step_of_restsAt hs, runLine, lineD3, hn]
  have hfree := State.free_passTime (State.free_of_restsAt hs)
  exact ⟨_, ⟨State.linesLeadTo_step hstep (State.restsAt_goto hfree .d4) rfl rfl rfl rfl rfl, rfl, rfl⟩, rfl⟩

/-- D1 to D3: the RX bank at D4 (R126, R128, R129). -/
theorem State.linesKeepFb_decide (hs : s.restsAt .d1 = true) : ∃ t : State,
    s.linesKeepFb (s.device.headReads s.cfg) .d4 t ∧
      t.rx = { s.rx.withHead s.cfg (s.device.receivedSize s.cfg) (s.device.readPointer s.cfg) with
        drop := some (rxOversized s.cfg (rxSize s.cfg (s.device.receivedSize s.cfg))) } := by
  obtain ⟨t, h, hrx⟩ := State.linesKeepFb_head hs
  obtain ⟨u, h3, hrx'⟩ := State.linesKeepFb_d4 h.restsAt (congrArg RxBank.size hrx)
  exact ⟨u, List.append_nil (s.device.headReads s.cfg) ▸ h.trans h3, by rw [hrx', hrx, h.cfg]⟩

/-- Settles O37: what D1 and D2 leave in the RX bank. -/
theorem frameSizeAndCursor : Obligations.FrameSizeAndCursor := by
  intro s hs
  obtain ⟨t, h, hrx⟩ := State.linesKeepFb_head hs
  exact ⟨_, _, _, _, t, h.reaches, rfl, h.h.trans (List.append_assoc _ _ _).symm, congrArg RxBank.rsr hrx,
    congrArg RxBank.size hrx, congrArg RxBank.rd0 hrx, congrArg RxBank.rcur hrx, h.restsAt⟩

/-! D4: the copy of a frame that fits (R100, R125, R129). -/

/-- COPY_IN of a frame that fits ends with the engine free, its bytes read into FB. -/
theorem exec_copyIn_reaches (hfree : s.free = true) (hv : Config.validWindow s.cfg.rxBase s.cfg.rxMask = true)
    (hp : s.rx.rcur = some p) (hn : s.rx.size = some n) (hcap : n ≤ s.cfg.cap) : ∃ t s' : State,
    exec .copyIn s = .next t ∧ t.reaches (s'.answer .done) ∧ (s'.answer .done).free = true ∧
      (s.setRxCursor (ringAddr s.cfg.rxBase s.cfg.rxMask p 0) 0).readIn s' p n 0
        (s.device.answers s.cfg (ringAddrs s.cfg.rxBase s.cfg.rxMask p n.toNat)) := by
  obtain ⟨s', hread, hlead⟩ := State.readIn_ringAnswers n.toNat (State.copyingIn_start hfree hn p) hv (Nat.zero_add _).le
    (by rw [Nat.zero_add]; exact hcap)
  have hcopying := hread.copyingIn
  rw [Nat.zero_add, State.ringAnswers_length] at hcopying
  obtain ⟨t, ht, hreach⟩ := hlead _ ⟨_, copyInTurn_end hcopying, State.reaches_refl _⟩
  have hop : s'.op = none := (congrArg State.op hread.state).trans (State.free_iff.1 hfree).2.1
  exact ⟨t, s', (exec_copyIn_eq hv hp hn).trans ht, hreach,
    State.free_iff.2 ⟨hcopying.undisturbed, hop, hcopying.pending⟩, State.ringAnswers_zero s p n.toNat ▸ hread⟩

theorem lineD4_keep (hd : s.rx.drop = some false) : lineD4 s = await .copyIn s (.next (s.goto .d5)) := by
  simp [lineD4, hd]

theorem lineD4_drop (hd : s.rx.drop = some true) : lineD4 s = .next (s.goto .d5) := by
  simp [lineD4, hd]

/-- D4 of a frame that fits: the bytes the device answers are in FB, and no other byte of it has changed. -/
theorem State.linesLeadTo_d5 (hs : s.restsAt .d4 = true) (hv : Config.validWindow s.cfg.rxBase s.cfg.rxMask = true)
    (hd : s.rx.drop = some false) (hp : s.rx.rcur = some p) (hn : s.rx.size = some n) (hcap : n ≤ s.cfg.cap)
    (hbs : bs = s.device.answers s.cfg (ringAddrs s.cfg.rxBase s.cfg.rxMask p n.toNat)) : ∃ t : State,
    s.linesLeadTo (ringReads s.cfg.rxBase s.cfg.rxMask p 0 bs) .d5 t ∧ t.fbHolds bs ∧
      (∀ i, n.toNat ≤ i → t.readFb i = s.readFb i) ∧ t.rx.drop = some false ∧ t.rx.size = some n ∧ t.rx.rd0 = s.rx.rd0 := by
  obtain ⟨-, -, -, -, hres⟩ := State.restsAt_iff.1 hs
  have hfree := State.free_passTime (State.free_passTime (State.free_of_restsAt hs))
  obtain ⟨v, s', hexec, hreach, hfree', hread⟩ := exec_copyIn_reaches hfree hv hp hn hcap
  replace hread : State.readIn _ s' p n 0 bs := hbs ▸ hread
  have hlength : 0 + bs.length = n.toNat := by simp [hbs, Device.answers_length, ringAddrs]
  have hdrop : s'.rx.drop = some false := (congrArg (·.rx.drop) hread.state).trans hd
  have hline : runLine .d4 s.passTime = .next (s.passTime.issue .copyIn) := by
    simp only [runLine, lineD4_keep (s := s.passTime) hd, await, State.passTime_opResult, hres]
  have hgo : runLine .d4 (s'.answer .done).passTime = .next ((s'.answer .done).passTime.goto .d5) :=
    lineD4_keep (s := (s'.answer .done).passTime) hdrop
  have hpc : s'.pc = s.pc := (congrArg State.pc hread.state :)
  refine ⟨(s'.answer .done).passTime.goto .d5, ⟨State.reaches_of_operation hs hline hexec hreach hfree' hpc hgo,
    State.restsAt_goto (State.free_passTime hfree') .d5, (congrArg List.tail hpc :), (congrArg State.act hread.state :),
    (congrArg State.cfg hread.state :), hread.h, (congrArg State.device hread.state :)⟩, fun j hj => ?_, fun j hj => ?_,
    hdrop, hread.copyingIn.size, (congrArg (·.rx.rd0) hread.state :)⟩
  · exact (congrArg s'.readFb (Nat.zero_add j).symm).trans (hread.holds j hj)
  · exact hread.others j (.inr (hlength ▸ hj))

/-! D5 to D7, and D9: the commit, RECV and the acknowledgement (R127, R130, R131). -/

/-- The acknowledgement of receive-ready, where the configuration has it at this point (R127). -/
def ackFrames (c : Config) (point : AckPoint) : List Event :=
  if c.recvAckPoint = point then [.w8 (s0Ir c.regmap) c.regmap.sirRecv] else []

/-- The line at `l` acknowledges receive-ready where `point` is the configured one, and goes to `l'` in any case (R127). -/
def Label.acksAt (l : Label) (point : AckPoint) (l' : Label) : Prop :=
  ∀ u, runLine l u = if u.cfg.recvAckPoint = point then await .ackRecv u (.next (u.goto l')) else .next (u.goto l')

theorem Label.acksAt_d7 : Label.d7.acksAt .beforeDispatch .d8 := fun _ => rfl

theorem Label.acksAt_d9 : Label.d9.acksAt .afterDispatch .p5 := fun _ => rfl

/-- At the configured point the line writes the receive-ready bit. -/
theorem State.reaches_ack (hs : s.restsAt l = true) (hl : l.acksAt point l') (hp : s.cfg.recvAckPoint = point) :
    s.reaches ((s.afterWrite (s0Ir s.cfg.regmap) s.cfg.regmap.sirRecv).goto l') := by
  have hline (u : State) (hu : u.cfg = s.cfg) : runLine l u = await .ackRecv u (.next (u.goto l')) :=
    (hl u).trans (if_pos (hu ▸ hp))
  exact State.reaches_of_lineWrite (i := .ackRecv) hs rfl (hline _ rfl) (hline _ rfl)

/-- At the other point the line goes on at once. -/
theorem runLine_ack_skip (hl : l.acksAt point l') (hp : s.cfg.recvAckPoint ≠ point) : runLine l s = .next (s.goto l') :=
  (hl s).trans (if_neg hp)

/-- D7 and D9, each at its own point (R127). -/
theorem State.linesKeepFb_ack (hs : s.restsAt l = true) (hl : l.acksAt point l') : ∃ t : State,
    s.linesKeepFb (ackFrames s.cfg point) l' t ∧ t.rx = s.rx := by
  by_cases hp : s.cfg.recvAckPoint = point
  · have hfree := State.free_afterWrite (State.free_of_restsAt hs) (s0Ir s.cfg.regmap) s.cfg.regmap.sirRecv
    rw [ackFrames, if_pos hp]
    exact ⟨_, ⟨⟨State.reaches_ack hs hl hp, State.restsAt_goto hfree l', rfl, rfl, rfl, rfl, rfl⟩, rfl, rfl⟩, rfl⟩
  · rw [ackFrames, if_neg hp]
    exact ⟨_, State.linesKeepFb_goto hs (runLine_ack_skip (s := s.passTime) hl hp), rfl⟩

/-- Settles O40: the acknowledgement's frame at the configured point, and a bare move of the sequencer at the other. -/
theorem receiveReadyAcknowledgedAtOnePoint : Obligations.ReceiveReadyAcknowledgedAtOnePoint := by
  intro s
  have hack {l l' : Label} {point : AckPoint} (hl : l.acksAt point l') (hs : s.restsAt l = true)
      (hp : s.cfg.recvAckPoint = point) : ∃ t : State, s.reaches t ∧
        t.h = s.h ++ [.w8 (s0Ir s.cfg.regmap) s.cfg.regmap.sirRecv] ∧ t.restsAt l' = true :=
    ⟨_, State.reaches_ack hs hl hp, rfl, State.restsAt_goto (State.free_afterWrite (State.free_of_restsAt hs) _ _) l'⟩
  have hskip {l l' : Label} {point : AckPoint} (hl : l.acksAt point l') (hs : s.restsAt l = true)
      (hp : s.cfg.recvAckPoint ≠ point) : ∃ t : State, step s = .next t ∧ t.h = s.h ∧ t.restsAt l' = true := by
    obtain ⟨hstep, ht⟩ := step_goto_of_restsAt hs (runLine_ack_skip (s := s.passTime) hl hp)
    exact ⟨_, hstep, rfl, ht⟩
  exact ⟨hack Label.acksAt_d7, fun hs hp => hskip Label.acksAt_d7 hs (by simp [hp]), hack Label.acksAt_d9,
    fun hs hp => hskip Label.acksAt_d9 hs (by simp [hp])⟩

/-- The frames of D5 to D7 for read pointer `p` and frame size `n` (R127, R130, R131). -/
def releaseFrames (c : Config) (p n : Word) : List Event :=
  write16Events (s0RxRd c.regmap) (rxCommit c p n) ++ [.w8 (s0Cr c.regmap) c.regmap.cmdRecv] ++ ackFrames c .beforeDispatch

/-- The pointer committed is past header and payload: past all that was received (R126, R130). -/
theorem rxCommit_rxSize (c : Config) (p w : Word) : rxCommit c p (rxSize c w) = p + w := by
  simp only [rxCommit, rxSize]
  bv_omega

theorem lineD5_await (hp : s.rx.rd0 = some p) (hn : s.rx.size = some n) : lineD5 s =
    await (.write16 (s0RxRd s.cfg.regmap) (rxCommit s.cfg p n)) s (.next (s.goto .d6)) := by
  simp [lineD5, hp, hn]

/-- D5 to D7 (R127, R130, R131). -/
theorem State.linesKeepFb_release (hs : s.restsAt .d5 = true) (hp : s.rx.rd0 = some p) (hn : s.rx.size = some n) :
    ∃ t : State, s.linesKeepFb (releaseFrames s.cfg p n) .d8 t ∧ t.rx = s.rx := by
  have hreach := State.reaches_of_lineWrite16 hs (lineD5_await hp hn) (lineD5_await (s := s.afterWrite16 _ _) hp hn)
  have hfree := State.free_afterWrite16 (State.free_of_restsAt hs) (s0RxRd s.cfg.regmap) (rxCommit s.cfg p n)
  have h5 : s.linesKeepFb (write16Events (s0RxRd s.cfg.regmap) (rxCommit s.cfg p n)) .d6 _ :=
    ⟨⟨hreach, State.restsAt_goto hfree .d6, rfl, rfl, rfl, rfl, rfl⟩, rfl, rfl⟩
  have h6 : State.linesKeepFb _ [.w8 (s0Cr s.cfg.regmap) s.cfg.regmap.cmdRecv] .d7 _ :=
    ⟨State.linesLeadTo_write h5.restsAt (fun _ => rfl) (by simp [fixedWrites]), rfl, rfl⟩
  obtain ⟨t, h7, hrx⟩ := State.linesKeepFb_ack h6.restsAt Label.acksAt_d7
  exact ⟨t, (h5.trans h6).trans h7, hrx⟩

/-! D8: a dropped frame is passed over, any other handed to Frame Dispatch (R129, R132, R144). -/

theorem lineD8_drop (hd : s.rx.drop = some true) (hn : s.rx.size = some n) : lineD8 s = .next (s.goto .d9) := by
  simp [lineD8, hd, hn]

theorem lineD8_call (hd : s.rx.drop = some false) (hn : s.rx.size = some n) (hres : s.opResult = .empty) :
    lineD8 s = .next ({ s with len := some n }.issue .dispatch) := by
  simp [lineD8, hd, hn, hres]

theorem lineD8_return (hd : s.rx.drop = some false) (hn : s.rx.size = some n) (hres : s.opResult = .done) :
    lineD8 s = .next (s.goto .d9) := by
  simp [lineD8, hd, hn, hres]

/-- FB is read whole where it holds `bs` inside CAP, by induction on `bs` (R26, R57). -/
theorem State.readFbBytes_of_readFb (bs : List Byte) : ∀ i, i + bs.length ≤ s.cfg.cap.toNat →
    (∀ j, j < bs.length → s.readFb (i + j) = bs[j]?) → s.readFbBytes i bs.length = .ok bs := by
  induction bs with
  | nil => exact fun _ _ _ => rfl
  | cons b bs ih =>
    intro i hcap hfb
    rw [List.length_cons] at hcap hfb ⊢
    have hb : s.readFb i = some b := hfb 0 (Nat.succ_pos _)
    have hrest := ih (i + 1) (by omega) fun j hj => by
      rw [Nat.add_assoc, Nat.add_comm 1 j]
      exact hfb (j + 1) (Nat.succ_lt_succ hj)
    rw [State.readFbBytes, if_neg (by omega), hb, hrest]

/-- DISPATCH of a frame in FB begins the callout with it (R144). -/
theorem exec_dispatch_of_fbHolds (hlen : s.len = some n) (hcap : n ≤ s.cfg.cap) (hn : bs.length = n.toNat)
    (hfb : s.fbHolds bs) : exec .dispatch s = .next (s.callout n bs) := by
  have hbytes := State.readFbBytes_of_readFb bs 0 (by rw [Nat.zero_add, hn]; exact hcap) fun j hj => by
    rw [Nat.zero_add]
    exact hfb j hj
  rw [hn] at hbytes
  simp only [exec, execDispatch, hlen, withWritten_some, hbytes]

/-- D8 of a frame that fits calls Frame Dispatch (R132, R144). -/
theorem State.reaches_callout (hs : s.restsAt .d8 = true) (hd : s.rx.drop = some false) (hn : s.rx.size = some n)
    (hcap : n ≤ s.cfg.cap) (hlen : bs.length = n.toNat) (hfb : s.fbHolds bs) :
    s.reaches (State.callout n bs { s.passTime.passTime with len := some n }) := by
  obtain ⟨-, -, -, -, hres⟩ := State.restsAt_iff.1 hs
  have hcall := (step_of_restsAt hs).trans (lineD8_call (s := s.passTime) hd hn hres)
  have hfree := State.free_passTime (State.free_of_restsAt hs)
  have hrun := (step_issue (s := { s.passTime with len := some n }) hfree .dispatch).trans
    (exec_dispatch_of_fbHolds rfl hcap hlen hfb)
  exact State.reaches_step hcall (State.reaches_step hrun (State.reaches_refl _))

/-! The statements about a whole frame. -/

/-- One acknowledgement is issued over both points (R127). -/
theorem ackFrames_append (c : Config) : ackFrames c .beforeDispatch ++ ackFrames c .afterDispatch =
    [.w8 (s0Ir c.regmap) c.regmap.sirRecv] := by
  cases hp : c.recvAckPoint <;> simp [ackFrames, hp]

/-- A frame is released with one acknowledgement in all (R127, R130, R131). -/
theorem releaseFrames_append_ack (c : Config) (p w : Word) :
    releaseFrames c p (rxSize c w) ++ ackFrames c .afterDispatch = write16Events (s0RxRd c.regmap) (p + w) ++
      [.w8 (s0Cr c.regmap) c.regmap.cmdRecv, .w8 (s0Ir c.regmap) c.regmap.sirRecv] := by
  rw [releaseFrames, rxCommit_rxSize, List.append_assoc, ackFrames_append, List.append_assoc]
  rfl

/-- D4 to D9 of a dropped frame (R129, R130). -/
theorem State.linesKeepFb_drop (hs : s.restsAt .d4 = true) (hd : s.rx.drop = some true) (hp : s.rx.rd0 = some p)
    (hn : s.rx.size = some n) : ∃ t : State,
    s.linesKeepFb (releaseFrames s.cfg p n ++ ackFrames s.cfg .afterDispatch) .p5 t := by
  have h4 := State.linesKeepFb_goto hs (lineD4_drop (s := s.passTime) hd)
  obtain ⟨t, h7, hrx⟩ := State.linesKeepFb_release h4.restsAt hp hn
  have h8 := State.linesKeepFb_goto h7.restsAt
    (lineD8_drop (s := t.passTime) ((congrArg RxBank.drop hrx).trans hd) ((congrArg RxBank.size hrx).trans hn))
  have h := (h4.trans h7).trans h8
  obtain ⟨u, h9, -⟩ := State.linesKeepFb_ack h8.restsAt Label.acksAt_d9
  rw [h.cfg] at h9
  exact ⟨u, by simpa using h.trans h9⟩

/-- Settles O38: D3 decides to drop the frame, and the lines after it release its space in the ring all the same. -/
theorem oversizedFrameIsDropped : Obligations.OversizedFrameIsDropped := by
  intro s hs hover
  obtain ⟨t, h, hrx⟩ := State.linesKeepFb_decide hs
  have hdrop : rxOversized s.cfg (rxSize s.cfg (s.device.receivedSize s.cfg)) = true := decide_eq_true hover
  obtain ⟨u, h'⟩ := State.linesKeepFb_drop h.restsAt ((congrArg RxBank.drop hrx).trans (congrArg some hdrop))
    (congrArg RxBank.rd0 hrx) (congrArg RxBank.size hrx)
  rw [h.cfg, releaseFrames_append_ack] at h'
  have hall := h.trans h'
  refine ⟨_, _, _, _, u, hall.reaches, rfl, hall.h.trans ?_, hall.fb, hall.len, hall.restsAt⟩
  simp only [Device.headReads, List.append_assoc]
  rfl

/-- Settles O39: D1 to D3, the copy, D5 to D7, and the callout. -/
theorem frameIsDrainedThenDispatched : Obligations.FrameIsDrainedThenDispatched := by
  intro s n hs hvalid hn hcap
  obtain ⟨bs, hbs⟩ : ∃ bs, bs = (s.device.afterFrames s.cfg (s.device.headReads s.cfg)).answers s.cfg
    (ringAddrs s.cfg.rxBase s.cfg.rxMask (rxCursor s.cfg (s.device.readPointer s.cfg)) n.toNat) := ⟨_, rfl⟩
  have hlength : bs.length = n.toNat := by simp [hbs, Device.answers_length, ringAddrs]
  have hsize : rxSize s.cfg (s.device.receivedSize s.cfg) = n := hn.symm
  have hfits : rxOversized s.cfg n = false := decide_eq_false (BitVec.not_lt.2 hcap)
  obtain ⟨t, h, hrx⟩ := State.linesKeepFb_decide hs
  rw [hsize, hfits] at hrx
  obtain ⟨u, h4, hholds, hothers, hdrop, hsize', hrd0⟩ := State.linesLeadTo_d5 h.restsAt
    (h.cfg ▸ (Config.validWindow_of_valid hvalid).2) (congrArg RxBank.drop hrx) (congrArg RxBank.rcur hrx)
    ((congrArg RxBank.size hrx).trans (congrArg some hsize)) (h.cfg ▸ hcap) (bs := bs) (by rw [h.cfg, h.device, hbs])
  obtain ⟨v, h7, hrx'⟩ := State.linesKeepFb_release h4.restsAt (hrd0.trans (congrArg RxBank.rd0 hrx)) hsize'
  have hkept (i : Nat) : v.readFb i = u.readFb i := by rw [State.readFb, State.readFb, h7.fb]
  rw [h.cfg] at h4
  rw [h4.cfg, h.cfg] at h7
  have hall := (h.lines.trans h4).trans h7.lines
  have hfb : v.fbHolds bs := fun j hj => (hkept j).trans (hholds j hj)
  have hcall := State.reaches_callout h7.restsAt ((congrArg RxBank.drop hrx').trans hdrop)
    ((congrArg RxBank.size hrx').trans hsize') (hall.cfg ▸ hcap) hlength hfb
  obtain ⟨-, ⟨rest, hpc⟩, -⟩ := State.restsAt_iff.1 h7.restsAt
  refine ⟨_, _, _, _, bs, _, State.reaches_trans hall.reaches hcall, by rw [hbs]; rfl, ?_, rfl, hfb, fun i hi => ?_,
    rfl, ?_⟩
  · refine (congrArg (· ++ [.dispatch n bs]) hall.h).trans ?_
    rw [← hsize, releaseFrames, rxCommit_rxSize]
    simp only [Device.headReads, List.append_assoc]
    rfl
  · exact (hkept i).trans ((hothers i hi).trans (by rw [State.readFb, State.readFb, h.fb]))
  · have hbelow : rest = s.pc.tail := by rw [← hall.below, hpc, List.tail_cons]
    exact congrArg (Label.dispatch :: ·) (hpc.trans (congrArg (Label.d8 :: ·) hbelow))

/-! The callout (R132, R144, R146, R155). -/

/-- Where Frame Dispatch has no move to come, only the host's time passes inside the callout, by induction on the steps. -/
theorem run_callout_waits (k : Nat) : ∀ {s : State}, s.restsAt .dispatch = true → s.dispatch = [] →
    ∃ ms, ms <:+ s.host ∧ run k s = .next { s with host := ms } := by
  induction k with
  | zero => exact fun {s} _ _ => ⟨s.host, List.suffix_refl _, rfl⟩
  | succ k ih =>
    intro s hs hd
    have hstep : step s = .next s.passTime := by
      rw [step_dispatchMove hs, dispatchMove, State.passTime_dispatch, hd]
    obtain ⟨ms, hms, hrun⟩ := ih (State.restsAt_passTime hs) hd
    exact ⟨ms, hms.trans (afterPause_suffix _), by rw [run, hstep]; exact hrun⟩

/-- Settles O42: the callout waits, and D8 goes on once it has returned. -/
theorem calloutWaitsAndReturns : Obligations.CalloutWaitsAndReturns := by
  refine ⟨fun s hs hd k => run_callout_waits k hs hd, fun s n rest ms hs hpc hd hdrop hn => ?_⟩
  have hreturn : step s = .next (State.returnFromCallout { s.passTime with dispatch := ms }) := by
    rw [step_dispatchMove hs, dispatchMove, State.passTime_dispatch, hd]
  have hfree : (State.returnFromCallout { s.passTime with dispatch := ms }).free = true :=
    State.free_passTime (State.free_of_restsAt hs)
  obtain ⟨hund, hop, hp⟩ := State.free_iff.1 hfree
  have hgo := (step_line hund hp hop (congrArg List.tail hpc)).trans (lineD8_return hdrop hn rfl)
  have hpc' : s.pc.tail.tail = rest := by rw [hpc]; rfl
  exact ⟨_, State.reaches_step hreturn (State.reaches_step hgo (State.reaches_refl _)), rfl,
    congrArg (Label.d9 :: ·) hpc', State.restsAt_goto (State.free_passTime hfree) .d9, rfl, rfl, rfl, rfl⟩

end Sys2Proof.Machine

/-! PROOFS. TRANSMIT's lines T1 to T7: the window check, the free-space wait by induction on its reads below the length, and
the frame from the write pointer to SEND (R134 to R141, R150). -/

namespace Sys2Proof.Machine

variable {s : State} {n p : Word} {k : Nat} {bs : List Byte} {r : RequestResult}

/-! Where a request's result goes (R21, R150, log 16, log 37). -/

theorem State.finish_nested (h : s.act = .inNestedTransmit) :
    (s.finish r).dispatchResult = some r ∧ (s.finish r).hostResult = s.hostResult := ⟨if_pos h, if_pos h⟩

theorem State.finish_unnested (h : s.act ≠ .inNestedTransmit) :
    (s.finish r).hostResult = some r ∧ (s.finish r).dispatchResult = s.dispatchResult := ⟨if_neg h, if_neg h⟩

/-! T1 and T2: the window (R135). -/

theorem step_t1_oversized (hs : s.restsAt .t1 = true) (hn : s.tx.tlen = some n) (h : s.cfg.txMask.toNat + 1 < n.toNat) :
    step s = .next (s.passTime.finish .tooLarge) := by
  simp [step_of_restsAt hs, runLine, lineT1, hn, txOversized, h]

/-- T1 and T2 of a frame that fits the window: no read of the free size is counted yet. -/
theorem State.linesKeepFb_t3 (hs : s.restsAt .t1 = true) (hn : s.tx.tlen = some n)
    (h : n.toNat ≤ s.cfg.txMask.toNat + 1) :
    ∃ t : State, s.linesKeepFb [] .t3 t ∧ t.tx = { s.tx with nfsr := some 0 } := by
  have h1 : s.linesKeepFb [] .t2 (s.passTime.goto .t2) :=
    State.linesKeepFb_goto hs (by simp [runLine, lineT1, hn, txOversized, Nat.not_lt.2 h])
  have hrest := State.restsAt_goto (State.free_passTime (State.free_of_restsAt h1.restsAt)) .t3
  have h2 := State.linesLeadTo_step (step_of_restsAt h1.restsAt) hrest rfl rfl rfl rfl rfl
  exact ⟨_, h1.trans ⟨h2, rfl, rfl⟩, rfl⟩

/-- Settles O45: T1 ends the request, or leads through T2 to the free-space wait. -/
theorem oversizedTransmitIsAborted : Obligations.OversizedTransmitIsAborted := by
  intro s n hs hn
  refine ⟨fun h => ?_, fun h => ?_⟩
  · exact ⟨_, step_t1_oversized hs hn h, rfl, rfl, rfl, fun ha => (State.finish_nested ha).1,
      fun ha => (State.finish_unnested ha).1, rfl, rfl⟩
  · obtain ⟨t, hlead, htx⟩ := State.linesKeepFb_t3 hs hn h
    exact ⟨t, hlead.reaches, hlead.h.trans (List.append_nil _), congrArg TxBank.nfsr htx,
      (congrArg TxBank.tlen htx).trans hn, hlead.restsAt⟩

/-! T3: the free-space wait (R136). -/

theorem step_t3_bound (hs : s.restsAt .t3 = true) (hn : s.tx.tlen = some n) (hk : s.tx.nfsr = some k)
    (hb : s.cfg.fsrBound = some k) : step s = .next (s.passTime.finish .txSpaceTimeout) := by
  obtain ⟨-, -, -, -, hres⟩ := State.restsAt_iff.1 hs
  simp [step_of_restsAt hs, runLine, lineT3, hn, hk, hres, boundReached, hb]

/-- With the bound not reached T3 is a line that waits for a word. -/
theorem lineT3_await (hn : s.tx.tlen = some n) (hk : s.tx.nfsr = some k) (hb : s.cfg.fsrBound ≠ some k) :
    lineT3 s = awaitData (.read16 (s0TxFsr s.cfg.regmap)) s fun v =>
      .next ({ s with tx := { s.tx with fsr := some v, nfsr := some (k + 1) } }.goto (if v < n then .t3 else .t4)) := by
  cases hres : s.opResult <;> simp [lineT3, awaitData, hn, hk, hres, boundReached, hb]

/-- One read of the free size under the bound: again while it is below the length. -/
theorem State.linesKeepFb_freeSize (hs : s.restsAt .t3 = true) (hn : s.tx.tlen = some n) (hk : s.tx.nfsr = some k)
    (hb : s.cfg.fsrBound ≠ some k) : ∃ t : State,
    s.linesKeepFb (s.device.wordReads s.cfg (s0TxFsr s.cfg.regmap))
        (if s.device.wordAnswer s.cfg (s0TxFsr s.cfg.regmap) < n then .t3 else .t4) t ∧
      t.tx = { s.tx with fsr := some (s.device.wordAnswer s.cfg (s0TxFsr s.cfg.regmap)), nfsr := some (k + 1) } := by
  have hreach := State.reaches_of_lineRead16 hs (lineT3_await (s := s.passTime) hn hk hb)
    (lineT3_await (s := s.afterRead16 _) hn hk hb)
  have hfree := State.free_afterRead16 (State.free_of_restsAt hs) (s0TxFsr s.cfg.regmap)
  exact ⟨_, ⟨⟨hreach, State.restsAt_goto hfree _, rfl, rfl, rfl, rfl, rfl⟩, rfl, rfl⟩, rfl⟩

/-- Settles O46: T3 ends the request, or reads the free size and goes on where its word says. -/
theorem freeSpaceWait : Obligations.FreeSpaceWait := by
  intro s n k hs hn hk
  refine ⟨fun hb => ?_, fun hb => ?_⟩
  · exact ⟨_, step_t3_bound hs hn hk hb, rfl, rfl, rfl, State.finish_nested, State.finish_unnested, rfl, rfl⟩
  · obtain ⟨t, hlead, htx⟩ := State.linesKeepFb_freeSize hs hn hk hb
    exact ⟨_, _, t, hlead.reaches, rfl, hlead.h, congrArg TxBank.fsr htx, congrArg TxBank.nfsr htx,
      (congrArg TxBank.tlen htx).trans hn, hlead.restsAt⟩

/-- The frames of consecutive READ16 at `a` that answered `xs` (R94, R136). -/
def pollReads (a : Word) (xs : List (Byte × Byte)) : List Event := xs.flatMap fun x => read16Events a x.1 x.2

/-- The first of the device's answers to consecutive READ16 is its answer to the next one, the rest are those after it. -/
theorem Device.polls_eq_cons {c : Config} {dev : Device} {a : Word} {x : Byte × Byte} {xs : List (Byte × Byte)}
    (h : dev.polls c a (k + 1) = x :: xs) : dev.wordReads c a = read16Events a x.1 x.2 ∧
      dev.wordAnswer c a = concatBytes x.1 x.2 ∧ (dev.afterWord c a).polls c a k = xs := by
  obtain ⟨rfl, rfl⟩ := List.cons.inj h
  exact ⟨rfl, rfl, rfl⟩

/-- The wait ends at the first free size not below the length, by induction on the reads below it. -/
theorem State.linesKeepFb_t4 {last : Byte × Byte} (hlast : n ≤ concatBytes last.1 last.2) (below : List (Byte × Byte)) :
    ∀ {s : State} {k : Nat}, s.restsAt .t3 = true → s.tx.tlen = some n → s.tx.nfsr = some k →
      (∀ b, s.cfg.fsrBound = some b → k + below.length < b) → (∀ x ∈ below, concatBytes x.1 x.2 < n) →
      s.device.polls s.cfg (s0TxFsr s.cfg.regmap) (below.length + 1) = below ++ [last] →
      ∃ t : State, s.linesKeepFb (pollReads (s0TxFsr s.cfg.regmap) (below ++ [last])) .t4 t ∧ t.tx.tlen = some n := by
  induction below with
  | nil =>
    intro s k hs hn hk hbound _ hpolls
    have hb : s.cfg.fsrBound ≠ some k := fun h => absurd (hbound k h) (Nat.lt_irrefl k)
    obtain ⟨hreads, hword, -⟩ := Device.polls_eq_cons hpolls
    obtain ⟨t, h, htx⟩ := State.linesKeepFb_freeSize hs hn hk hb
    rw [hreads, hword, if_neg (BitVec.not_lt.2 hlast)] at h
    exact ⟨t, h, (congrArg TxBank.tlen htx).trans hn⟩
  | cons x below ih =>
    intro s k hs hn hk hbound hbelow hpolls
    rw [List.forall_mem_cons] at hbelow
    have hb : s.cfg.fsrBound ≠ some k := fun h => absurd (hbound k h) (by simp)
    obtain ⟨hreads, hword, hrest⟩ := Device.polls_eq_cons hpolls
    obtain ⟨t, h, htx⟩ := State.linesKeepFb_freeSize hs hn hk hb
    rw [hword, if_pos hbelow.1] at h
    have hdevice : t.device = s.device.afterWord s.cfg (s0TxFsr s.cfg.regmap) := h.device
    obtain ⟨u, h', hn'⟩ := ih h.restsAt ((congrArg TxBank.tlen htx).trans hn) (congrArg TxBank.nfsr htx)
      (fun b hb => by
        have := hbound b (h.cfg ▸ hb)
        rw [List.length_cons] at this
        omega)
      hbelow.2 (by rw [h.cfg, hdevice]; exact hrest)
    rw [hreads] at h
    rw [h.cfg] at h'
    exact ⟨u, h.trans h', hn'⟩

/-- T1 to T3 of a frame that fits the window and waits for its free size (R135, R136). -/
theorem State.linesKeepFb_wait {below : List (Byte × Byte)} {last : Byte × Byte} (hs : s.restsAt .t1 = true)
    (hn : s.tx.tlen = some n) (hfit : n.toNat ≤ s.cfg.txMask.toNat + 1)
    (hbound : ∀ b, s.cfg.fsrBound = some b → below.length < b) (hbelow : ∀ x ∈ below, concatBytes x.1 x.2 < n)
    (hlast : n ≤ concatBytes last.1 last.2)
    (hpolls : s.device.polls s.cfg (s0TxFsr s.cfg.regmap) (below.length + 1) = below ++ [last]) :
    ∃ t : State, s.linesKeepFb (pollReads (s0TxFsr s.cfg.regmap) (below ++ [last])) .t4 t ∧ t.tx.tlen = some n := by
  obtain ⟨t, h, htx⟩ := State.linesKeepFb_t3 hs hn hfit
  have hdevice : t.device = s.device := h.device
  obtain ⟨u, h', hn'⟩ := State.linesKeepFb_t4 hlast below h.restsAt ((congrArg TxBank.tlen htx).trans hn)
    (congrArg TxBank.nfsr htx) (by rw [h.cfg, Nat.zero_add]; exact hbound) hbelow (by rw [hdevice, h.cfg]; exact hpolls)
  rw [h.cfg] at h'
  exact ⟨u, h.trans h', hn'⟩

/-! T4 to T6: the pointer, the copy and the commit (R137 to R139). -/

theorem State.fbHolds_of_fb {t : State} (h : t.fb = s.fb) (hfb : s.fbHolds bs) : t.fbHolds bs :=
  fun j hj => (congrArg (Memory.read fbUnlisted · j) h).trans (hfb j hj)

/-- T4 (R137). -/
theorem State.linesKeepFb_t5 (hs : s.restsAt .t4 = true) : ∃ t : State,
    s.linesKeepFb (s.device.wordReads s.cfg (s0TxWr s.cfg.regmap)) .t5 t ∧
      t.tx = { s.tx with wr0 := some (s.device.wordAnswer s.cfg (s0TxWr s.cfg.regmap)) } := by
  have hreach := State.reaches_of_lineRead16 (a := s0TxWr s.cfg.regmap) hs rfl rfl
  have hfree := State.free_afterRead16 (State.free_of_restsAt hs) (s0TxWr s.cfg.regmap)
  exact ⟨_, ⟨⟨hreach, State.restsAt_goto hfree .t5, rfl, rfl, rfl, rfl, rfl⟩, rfl, rfl⟩, rfl⟩

/-- COPY_OUT of a frame in FB ends with the engine free, its bytes sent. -/
theorem exec_copyOut_reaches (hfree : s.free = true) (hv : Config.validWindow s.cfg.txBase s.cfg.txMask = true)
    (hp : s.tx.wr0 = some p) (hn : s.tx.tlen = some n) (hcap : n ≤ s.cfg.cap) (hlen : bs.length = n.toNat)
    (hfb : s.fbHolds bs) : ∃ t s' : State,
    exec .copyOut s = .next t ∧ t.reaches (s'.answer .done) ∧ (s'.answer .done).free = true ∧
      (s.setTxCursor (ringAddr s.cfg.txBase s.cfg.txMask p 0) 0).sentOut s' p n 0 bs := by
  obtain ⟨s', hsent, hlead⟩ := State.sentOut_of_readFb bs (State.copyingOut_start hfree hn p) hv
    (by rw [Nat.zero_add, hlen]) (by rw [Nat.zero_add, hlen]; exact hcap) fun j hj => by
      rw [Nat.zero_add]
      exact hfb j hj
  have hcopying := hsent.copyingOut
  rw [Nat.zero_add, hlen] at hcopying
  obtain ⟨t, ht, hreach⟩ := hlead _ ⟨_, copyOutTurn_end hcopying, State.reaches_refl _⟩
  have hop : s'.op = none := (congrArg State.op hsent.state).trans (State.free_iff.1 hfree).2.1
  exact ⟨t, s', (exec_copyOut_eq hv hp hn).trans ht, hreach,
    State.free_iff.2 ⟨hcopying.undisturbed, hop, hcopying.pending⟩, hsent⟩

/-- T5 (R138). -/
theorem State.linesKeepFb_t6 (hs : s.restsAt .t5 = true) (hv : Config.validWindow s.cfg.txBase s.cfg.txMask = true)
    (hp : s.tx.wr0 = some p) (hn : s.tx.tlen = some n) (hcap : n ≤ s.cfg.cap) (hlen : bs.length = n.toNat)
    (hfb : s.fbHolds bs) : ∃ t : State,
    s.linesKeepFb (ringWrites s.cfg.txBase s.cfg.txMask p 0 bs) .t6 t ∧ t.tx.wr0 = some p ∧ t.tx.tlen = some n := by
  obtain ⟨-, -, -, -, hres⟩ := State.restsAt_iff.1 hs
  have hfree := State.free_passTime (State.free_passTime (State.free_of_restsAt hs))
  obtain ⟨v, s', hexec, hreach, hfree', hsent⟩ := exec_copyOut_reaches hfree hv hp hn hcap hlen hfb
  have hline : runLine .t5 s.passTime = .next (s.passTime.issue .copyOut) := by
    simp only [runLine, lineT5, await, State.passTime_opResult, hres]
  have hpc : s'.pc = s.pc := (congrArg State.pc hsent.state :)
  have hwr0 : s'.tx.wr0 = some p := (congrArg (·.tx.wr0) hsent.state).trans hp
  refine ⟨(s'.answer .done).passTime.goto .t6, ⟨⟨State.reaches_of_operation hs hline hexec hreach hfree' hpc rfl,
    State.restsAt_goto (State.free_passTime hfree') .t6, (congrArg List.tail hpc :), (congrArg State.act hsent.state :),
    (congrArg State.cfg hsent.state :), hsent.h, (congrArg State.device hsent.state :)⟩,
    (congrArg State.fb hsent.state :), (congrArg State.len hsent.state :)⟩, hwr0, hsent.copyingOut.tlen⟩

theorem lineT6_await (hp : s.tx.wr0 = some p) (hn : s.tx.tlen = some n) : lineT6 s =
    await (.write16 (s0TxWr s.cfg.regmap) (txCommit p n)) s (.next (s.goto .t7)) := by
  simp [lineT6, hp, hn]

/-- T6 (R139). -/
theorem State.linesKeepFb_t7 (hs : s.restsAt .t6 = true) (hp : s.tx.wr0 = some p) (hn : s.tx.tlen = some n) :
    ∃ t : State, s.linesKeepFb (write16Events (s0TxWr s.cfg.regmap) (txCommit p n)) .t7 t := by
  have hreach := State.reaches_of_lineWrite16 hs (lineT6_await hp hn) (lineT6_await (s := s.afterWrite16 _ _) hp hn)
  have hfree := State.free_afterWrite16 (State.free_of_restsAt hs) (s0TxWr s.cfg.regmap) (txCommit p n)
  exact ⟨_, ⟨hreach, State.restsAt_goto hfree .t7, rfl, rfl, rfl, rfl, rfl⟩, rfl, rfl⟩

/-- T4 to T6: the frame in FB is in the ring, and the pointer past it committed. -/
theorem State.linesKeepFb_send (hs : s.restsAt .t4 = true) (hv : Config.validWindow s.cfg.txBase s.cfg.txMask = true)
    (hn : s.tx.tlen = some n) (hcap : n ≤ s.cfg.cap) (hlen : bs.length = n.toNat) (hfb : s.fbHolds bs)
    (hp : s.device.wordAnswer s.cfg (s0TxWr s.cfg.regmap) = p) : ∃ t : State,
    s.linesKeepFb (s.device.wordReads s.cfg (s0TxWr s.cfg.regmap) ++ ringWrites s.cfg.txBase s.cfg.txMask p 0 bs ++
      write16Events (s0TxWr s.cfg.regmap) (txCommit p n)) .t7 t := by
  obtain ⟨t, h4, htx⟩ := State.linesKeepFb_t5 hs
  rw [hp] at htx
  obtain ⟨u, h5, hp', hn'⟩ := State.linesKeepFb_t6 h4.restsAt (h4.cfg ▸ hv) (congrArg TxBank.wr0 htx)
    ((congrArg TxBank.tlen htx).trans hn) (h4.cfg ▸ hcap) hlen
    (State.fbHolds_of_fb h4.fb hfb)
  obtain ⟨v, h6⟩ := State.linesKeepFb_t7 h5.restsAt hp' hn'
  rw [h5.cfg, h4.cfg] at h6
  rw [h4.cfg] at h5
  exact ⟨v, (h4.trans h5).trans h6⟩

/-! T7 and the whole request (R134, R140, R141, R150). -/

/-- T7 gives SEND and ends the request (R140, R141). -/
theorem State.reaches_sent (hs : s.restsAt .t7 = true) :
    s.reaches ((s.afterWrite (s0Cr s.cfg.regmap) s.cfg.regmap.cmdSend).finish .sent) :=
  State.reaches_of_await (i := .cmdSend) (k := fun u => .next (u.finish .sent)) hs (fun _ => rfl) rfl rfl

/-- A TRANSMIT returns to the level it is admitted at (R134, R150). -/
theorem Act.restored_transmit {a : Act} (h : a = .idle ∨ a = .inDispatch) :
    (if a = .idle then Act.inTransmit else .inNestedTransmit).restored = a := by
  rcases h with rfl | rfl <;> rfl

/-- Settles O47: TRANSMIT is admitted, T1 to T3 wait for the free size, and T4 to T7 send the frame. -/
theorem transmitSendsTheFrame : Obligations.TransmitSendsTheFrame := by
  intro s n bs below last hs hact hmode hvalid hlen hcap hfit hbs hfb hpolls hbelow hlast hbound
  obtain ⟨s, hfree, rfl⟩ := State.eq_issue_of_runsNext hs
  have hadmit := (step_issue hfree .transmit).trans ((requestsAreAdmitted s.passTime).2.2 n hact hmode hlen)
  have ht1 := State.restsAt_enter (s := { s.passTime with tx := { TxBank.unwritten with tlen := some n } })
    (State.free_passTime hfree) (if s.act = .idle then .inTransmit else .inNestedTransmit) .t1
  obtain ⟨t, hwait, hn⟩ := State.linesKeepFb_wait ht1 rfl hfit hbound hbelow hlast hpolls
  have hcfg : t.cfg = s.cfg := hwait.cfg
  have hfb' : t.fbHolds bs := State.fbHolds_of_fb hwait.fb hfb
  obtain ⟨u, hsend⟩ := State.linesKeepFb_send (bs := bs) hwait.restsAt
    (hcfg ▸ (Config.validWindow_of_valid hvalid).1) hn (hcfg ▸ hcap) hbs hfb' rfl
  rw [hcfg, hwait.device] at hsend
  have hall := hwait.trans hsend
  have hact' : u.act = if s.act = .idle then .inTransmit else .inNestedTransmit := hall.act
  obtain ⟨hund, -⟩ := State.restsAt_iff.1 hall.restsAt
  refine ⟨_, _, _, State.reaches_step hadmit (State.reaches_trans hall.reaches (State.reaches_sent hall.restsAt)), rfl, ?_,
    (congrArg Act.restored hact').trans (Act.restored_transmit hact), hall.below, hall.fb, hall.len,
    (State.undisturbed_iff.1 hund).1, fun ha => ?_, fun ha => ?_⟩
  · have hcfg' : u.cfg = s.cfg := hall.cfg
    refine (congrArg (· ++ _ ++ _) hall.h).trans ?_
    simp only [hcfg', List.append_assoc]
    rfl
  · exact (State.finish_unnested (ne_of_eq_of_ne (hact'.trans (if_pos ha)) (by decide))).1
  · exact (State.finish_nested (hact'.trans (if_neg (ne_of_eq_of_ne ha (by decide))))).1

end Sys2Proof.Machine

/-! PROOFS. DISPATCH: the callout it begins, and everything it leaves as it was (R144). -/

namespace Sys2Proof.Machine

/-- The callout adds its event to H, sets `act` and puts its own level on the stack: no other field changes (R23, R144). -/
theorem State.callout_eq (n : Word) (bs : List Byte) (s : State) : s.callout n bs =
    { s with h := s.h ++ [.dispatch n bs], act := .inDispatch, pc := .dispatch :: s.pc, opResult := .empty } := rfl

/-- Settles O26: LEN and the LEN bytes of FB are read, and the callout begins with them. -/
theorem dispatchCallsOut : Obligations.DispatchCallsOut := by
  intro s n bs hlen hcap hbs hfb
  rw [exec_dispatch_of_fbHolds hlen hcap hbs hfb, State.callout_eq]

end Sys2Proof.Machine

/-! PROOFS. The engine's reset: the step that takes it, what it leaves, and the invariants it meets (R171, R172). -/

namespace Sys2Proof.Machine

/-- The reset input comes before the marks and every other move (R171). -/
theorem step_of_reset {s : State} {ms : List HostMove} (h : s.host = .reset :: ms) :
    step s = .next (State.resetWith s.cfg s.device ms s.dispatch) := by
  have hreset : s.resetAsserted = true := by simp [State.resetAsserted, h]
  have htake : s.takeReset = State.resetWith s.cfg s.device ms s.dispatch := by
    simp [State.takeReset, State.engineReset, h]
  rw [step, if_pos hreset, htake]

/-- Every byte of FB is unwritten at reset (R172). -/
@[simp] theorem State.readFb_resetWith (c : Config) (dev : Device) (host : List HostMove) (dispatch : List DispatchMove)
    (i : Nat) : (State.resetWith c dev host dispatch).readFb i = none := rfl

/-- Settles O50: the step is the reset, and the state after it is the one of R172 field by field. -/
theorem engineReset : Obligations.EngineReset := by
  intro s ms h
  exact ⟨_, step_of_reset h, rfl, rfl, rfl, rfl, rfl, rfl, rfl, State.readFb_resetWith _ _ _ _, rfl, rfl, rfl, rfl, rfl, rfl⟩

/-- Settles O55: the engine is idle with nothing issued or under way, FB is empty and the device's space fits, the bus record
and H are both empty. -/
theorem resetMeetsTheInvariants : Obligations.ResetMeetsTheInvariants := by
  intro c dev host dispatch hdev
  refine ⟨?controlled, ?memory, ?wire, ?traffic⟩
  case controlled => exact State.controlled_of_idle rfl rfl rfl rfl
  case memory => exact State.memoryFits_iff.2 ⟨⟨rfl, rfl⟩, hdev⟩
  case wire => exact ⟨rfl, rfl⟩
  case traffic => rfl

end Sys2Proof.Machine
